-- ==== Sys2Proof/Word.lean ====
section
/-! DEFINITION. Word types of the micro_6502 CORE (00_scope.md R8, R11): a byte is 8 bits, a word is 16 bits. -/

namespace Sys2Proof

/-- A byte: the data width (00_scope.md R8). -/
abbrev Byte := BitVec 8

/-- A word: the address width (00_scope.md R8). -/
abbrev Word := BitVec 16

end Sys2Proof
end

