-- ==== Sys2Proof/Machine/Bits.lean ====
section
/-! DEFINITION. Byte order, halves and extensions (00_scope.md R11, R12; 20_memory.md R74). -/

namespace Sys2Proof

/-- `hi ++ lo`: the word with these two bytes (00_scope.md R11). -/
def concat (hi lo : Byte) : Word := hi ++ lo

/-- `v[7:0]`. -/
def loByte (v : Word) : Byte := v.extractLsb' 0 8

/-- `v[15:8]`. -/
def hiByte (v : Word) : Byte := v.extractLsb' 8 8

/-- `zext_16` (00_scope.md R12). -/
def zext16 (b : Byte) : Word := b.zeroExtend 16

/-- `sext_16`: the byte read as a two's-complement number (00_scope.md R12). -/
def sext16 (b : Byte) : Word := b.signExtend 16

end Sys2Proof
end

