-- ==== Sys2Proof/Config.lean ====
section
/-! DEFINITION. What is fixed for the machine: the vector addresses and the stack page (00_scope.md R8), and the
switches of 00_scope.md R10 and 70_reset_and_hazards.md R402 at the spec's defaults.

The operations of Machine/Flags.lean, Machine/Operands.lean, Machine/LoadStore.lean and Machine/ControlPort.lean
take each switch as an argument, so that the alternative reading is defined too; the machine passes the constant
that stands here. -/

namespace Sys2Proof

/-- The readings of ADC's V (00_scope.md R10; 43_arith_logic.md R231). -/
inductive AdcVRule where
  /-- V is set exactly when the unsigned sum exceeds 255. -/
  | carry
  /-- V is the signed overflow. -/
  | signed
  deriving DecidableEq, Repr

/-- The readings of SBC's V (00_scope.md R10; 43_arith_logic.md R232). -/
inductive SbcVRule where
  /-- SBC does not write V. -/
  | unchanged
  /-- V is the signed overflow. -/
  | signed
  deriving DecidableEq, Repr

/-- The readings of C after a compare (00_scope.md R10; 43_arith_logic.md R250). -/
inductive CmpCRule where
  /-- C is set when the register is at least the operand. -/
  | nmos
  /-- C is set when the register is less than the operand. -/
  | borrow
  deriving DecidableEq, Repr

/-- The readings of an over-wide initial register value (70_reset_and_hazards.md R402). -/
inductive RegcfgOverflow where
  /-- The value keeps its low bits. -/
  | truncate
  /-- The value is an `InvalidRegisterValue`. -/
  | reject
  deriving DecidableEq, Repr

/-- `ADC_V_RULE`, the spec's default (R10; notes/assumptions/7.md). -/
def Config.adcVRule : AdcVRule := .carry

/-- `SBC_V_RULE`, the spec's default (R10; notes/assumptions/8.md). -/
def Config.sbcVRule : SbcVRule := .unchanged

/-- `CMP_C_RULE`, the spec's default (R10; notes/assumptions/9.md). -/
def Config.cmpCRule : CmpCRule := .nmos

/-- `TXS_SETS_ZN`, the spec's default (R10; notes/assumptions/10.md). -/
def Config.txsSetsZN : Bool := true

/-- `ZP_POINTER_WRAP`, the spec's default (R10; notes/assumptions/11.md). -/
def Config.zpPointerWrap : Bool := true

/-- `REGCFG_OVERFLOW`, the spec's default (R402; notes/assumptions/12.md). -/
def Config.regcfgOverflow : RegcfgOverflow := .truncate

/-- The reset vector: low byte here, high byte at the next address (00_scope.md R8). -/
def Config.resetVector : Word := 0xFFFC

/-- The IRQ/BRK vector: low byte here, high byte at the next address (00_scope.md R8). -/
def Config.irqVector : Word := 0xFFFE

/-- The first byte of the stack page (00_scope.md R8; 20_memory.md R81). -/
def Config.stackPage : Word := 0x0100

end Sys2Proof
end

