-- ==== Sys2Proof/Syntax.lean ====
section
/-! DEFINITION. The instruction set as syntax: the 56 mnemonics and 13 addressing modes (00_scope.md R8), the operand
forms, and `Instr`, with one constructor per row of spec/opcode_table.json. -/

namespace Sys2Proof

/-- The 56 mnemonics, by family (30_encoding.md R114). -/
inductive Mnemonic where
  | lda | ldx | ldy | sta | stx | sty | tax | tay | txa | tya | tsx | txs
  | pha | php | pla | plp
  | adc | sbc | and | ora | eor | cmp | cpx | cpy | bit | inc | dec | inx | iny | dex | dey
  | asl | lsr | rol | ror
  | jmp | jsr | rts | bcc | bcs | beq | bne | bmi | bpl | bvc | bvs
  | brk | rti | nop | clc | cld | cli | clv | sec | sed | sei
  deriving DecidableEq, Repr

/-- The 13 addressing modes (30_encoding.md R101). -/
inductive Mode where
  | implicit | accumulator | immediate | zeroPage | zeroPageX | zeroPageY | relative
  | absolute | absoluteX | absoluteY | indirect | indirectX | indirectY
  deriving DecidableEq, Repr

/-- How many operand bytes follow the opcode in each mode (30_encoding.md R101). -/
def Mode.operandBytes : Mode → Nat
  | .implicit | .accumulator => 0
  | .immediate | .zeroPage | .zeroPageX | .zeroPageY | .relative | .indirectX | .indirectY => 1
  | .absolute | .absoluteX | .absoluteY | .indirect => 2

/-- An operand whose mode has an effective address (40_addressing.md R140): the ten such modes with their decoded
operand, a byte or a word as the mode's width says (30_encoding.md R104). -/
inductive MemOperand where
  | zeroPage (zp : Byte)
  | zeroPageX (zp : Byte)
  | zeroPageY (zp : Byte)
  | relative (disp : Byte)
  | absolute (addr : Word)
  | absoluteX (base : Word)
  | absoluteY (base : Word)
  | indirect (ptr : Word)
  | indirectX (zp : Byte)
  | indirectY (zp : Byte)
  deriving DecidableEq, Repr

/-- An operand in any of the 13 modes (30_encoding.md R101). -/
inductive Operand where
  | implicit
  | accumulator
  | immediate (v : Byte)
  | mem (m : MemOperand)
  deriving DecidableEq, Repr

/-- The addressing mode of a memory operand. -/
def MemOperand.mode : MemOperand → Mode
  | .zeroPage _ => .zeroPage
  | .zeroPageX _ => .zeroPageX
  | .zeroPageY _ => .zeroPageY
  | .relative _ => .relative
  | .absolute _ => .absolute
  | .absoluteX _ => .absoluteX
  | .absoluteY _ => .absoluteY
  | .indirect _ => .indirect
  | .indirectX _ => .indirectX
  | .indirectY _ => .indirectY

/-- The addressing mode of an operand. -/
def Operand.mode : Operand → Mode
  | .implicit => .implicit
  | .accumulator => .accumulator
  | .immediate _ => .immediate
  | .mem m => m.mode

/-- What `ReadOperand` reads (40_addressing.md R158): register A, the operand byte itself, or memory. -/
inductive Source where
  | accumulator
  | immediate (v : Byte)
  | mem (m : MemOperand)
  deriving DecidableEq, Repr

/-- What `WriteOperand` writes (40_addressing.md R159): register A or memory. -/
inductive Dest where
  | accumulator
  | mem (m : MemOperand)
  deriving DecidableEq, Repr

/-- A destination read back as a source: a read-modify-write instruction uses one mode for both
(40_addressing.md R160). -/
def Dest.source : Dest → Source
  | .accumulator => .accumulator
  | .mem m => .mem m

/-- The operand as something `ReadOperand` reads; Implicit has nothing to read. -/
def Operand.source? : Operand → Option Source
  | .implicit => none
  | .accumulator => some .accumulator
  | .immediate v => some (.immediate v)
  | .mem m => some (.mem m)

/-- The operand as something `WriteOperand` writes; Implicit and Immediate are nothing to write
(40_addressing.md R159). -/
def Operand.dest? : Operand → Option Dest
  | .implicit => none
  | .accumulator => some .accumulator
  | .immediate _ => none
  | .mem m => some (.mem m)

/-- The operand as a memory operand, for the modes that have an effective address (40_addressing.md R140, R150). -/
def Operand.mem? : Operand → Option MemOperand
  | .implicit => none
  | .accumulator => none
  | .immediate _ => none
  | .mem m => some m

/-- The instruction set: one constructor per row of spec/opcode_table.json (30_encoding.md R112), with the operand
bytes of its mode. The ending of a name says the mode: Acc, Imm, Zp, ZpX, ZpY, Abs, AbsX, AbsY, Ind, IndX, IndY;
a name with no ending is Implicit, or Relative for the eight branches. -/
inductive Instr where
  | ldaImm (v : Byte) | ldaZp (zp : Byte) | ldaZpX (zp : Byte) | ldaAbs (addr : Word)
  | ldaAbsX (base : Word) | ldaAbsY (base : Word) | ldaIndX (zp : Byte) | ldaIndY (zp : Byte)
  | ldxImm (v : Byte) | ldxZp (zp : Byte) | ldxZpY (zp : Byte) | ldxAbs (addr : Word)
  | ldxAbsY (base : Word)
  | ldyImm (v : Byte) | ldyZp (zp : Byte) | ldyZpX (zp : Byte) | ldyAbs (addr : Word)
  | ldyAbsX (base : Word)
  | staZp (zp : Byte) | staZpX (zp : Byte) | staAbs (addr : Word) | staAbsX (base : Word)
  | staAbsY (base : Word) | staIndX (zp : Byte) | staIndY (zp : Byte)
  | stxZp (zp : Byte) | stxZpY (zp : Byte) | stxAbs (addr : Word)
  | styZp (zp : Byte) | styZpX (zp : Byte) | styAbs (addr : Word)
  | tax
  | tay
  | txa
  | tya
  | tsx
  | txs
  | pha
  | php
  | pla
  | plp
  | adcImm (v : Byte) | adcZp (zp : Byte) | adcZpX (zp : Byte) | adcAbs (addr : Word)
  | adcAbsX (base : Word) | adcAbsY (base : Word) | adcIndX (zp : Byte) | adcIndY (zp : Byte)
  | sbcImm (v : Byte) | sbcZp (zp : Byte) | sbcZpX (zp : Byte) | sbcAbs (addr : Word)
  | sbcAbsX (base : Word) | sbcAbsY (base : Word) | sbcIndX (zp : Byte) | sbcIndY (zp : Byte)
  | andImm (v : Byte) | andZp (zp : Byte) | andZpX (zp : Byte) | andAbs (addr : Word)
  | andAbsX (base : Word) | andAbsY (base : Word) | andIndX (zp : Byte) | andIndY (zp : Byte)
  | oraImm (v : Byte) | oraZp (zp : Byte) | oraZpX (zp : Byte) | oraAbs (addr : Word)
  | oraAbsX (base : Word) | oraAbsY (base : Word) | oraIndX (zp : Byte) | oraIndY (zp : Byte)
  | eorImm (v : Byte) | eorZp (zp : Byte) | eorZpX (zp : Byte) | eorAbs (addr : Word)
  | eorAbsX (base : Word) | eorAbsY (base : Word) | eorIndX (zp : Byte) | eorIndY (zp : Byte)
  | cmpImm (v : Byte) | cmpZp (zp : Byte) | cmpZpX (zp : Byte) | cmpAbs (addr : Word)
  | cmpAbsX (base : Word) | cmpAbsY (base : Word) | cmpIndX (zp : Byte) | cmpIndY (zp : Byte)
  | cpxImm (v : Byte) | cpxZp (zp : Byte) | cpxAbs (addr : Word)
  | cpyImm (v : Byte) | cpyZp (zp : Byte) | cpyAbs (addr : Word)
  | bitZp (zp : Byte) | bitAbs (addr : Word)
  | incZp (zp : Byte) | incZpX (zp : Byte) | incAbs (addr : Word) | incAbsX (base : Word)
  | decZp (zp : Byte) | decZpX (zp : Byte) | decAbs (addr : Word) | decAbsX (base : Word)
  | inx
  | iny
  | dex
  | dey
  | aslAcc | aslZp (zp : Byte) | aslZpX (zp : Byte) | aslAbs (addr : Word)
  | aslAbsX (base : Word)
  | lsrAcc | lsrZp (zp : Byte) | lsrZpX (zp : Byte) | lsrAbs (addr : Word)
  | lsrAbsX (base : Word)
  | rolAcc | rolZp (zp : Byte) | rolZpX (zp : Byte) | rolAbs (addr : Word)
  | rolAbsX (base : Word)
  | rorAcc | rorZp (zp : Byte) | rorZpX (zp : Byte) | rorAbs (addr : Word)
  | rorAbsX (base : Word)
  | jmpAbs (addr : Word) | jmpInd (ptr : Word)
  | jsrAbs (addr : Word)
  | rts
  | bcc (disp : Byte)
  | bcs (disp : Byte)
  | beq (disp : Byte)
  | bne (disp : Byte)
  | bmi (disp : Byte)
  | bpl (disp : Byte)
  | bvc (disp : Byte)
  | bvs (disp : Byte)
  | brk
  | rti
  | nop
  | clc
  | cld
  | cli
  | clv
  | sec
  | sed
  | sei
  deriving DecidableEq, Repr

/-- The mnemonic of an instruction. -/
def Instr.mnemonic : Instr → Mnemonic
  | .ldaImm _ | .ldaZp _ | .ldaZpX _ | .ldaAbs _ | .ldaAbsX _ | .ldaAbsY _ | .ldaIndX _ | .ldaIndY _ => .lda
  | .ldxImm _ | .ldxZp _ | .ldxZpY _ | .ldxAbs _ | .ldxAbsY _ => .ldx
  | .ldyImm _ | .ldyZp _ | .ldyZpX _ | .ldyAbs _ | .ldyAbsX _ => .ldy
  | .staZp _ | .staZpX _ | .staAbs _ | .staAbsX _ | .staAbsY _ | .staIndX _ | .staIndY _ => .sta
  | .stxZp _ | .stxZpY _ | .stxAbs _ => .stx
  | .styZp _ | .styZpX _ | .styAbs _ => .sty
  | .tax => .tax
  | .tay => .tay
  | .txa => .txa
  | .tya => .tya
  | .tsx => .tsx
  | .txs => .txs
  | .pha => .pha
  | .php => .php
  | .pla => .pla
  | .plp => .plp
  | .adcImm _ | .adcZp _ | .adcZpX _ | .adcAbs _ | .adcAbsX _ | .adcAbsY _ | .adcIndX _ | .adcIndY _ => .adc
  | .sbcImm _ | .sbcZp _ | .sbcZpX _ | .sbcAbs _ | .sbcAbsX _ | .sbcAbsY _ | .sbcIndX _ | .sbcIndY _ => .sbc
  | .andImm _ | .andZp _ | .andZpX _ | .andAbs _ | .andAbsX _ | .andAbsY _ | .andIndX _ | .andIndY _ => .and
  | .oraImm _ | .oraZp _ | .oraZpX _ | .oraAbs _ | .oraAbsX _ | .oraAbsY _ | .oraIndX _ | .oraIndY _ => .ora
  | .eorImm _ | .eorZp _ | .eorZpX _ | .eorAbs _ | .eorAbsX _ | .eorAbsY _ | .eorIndX _ | .eorIndY _ => .eor
  | .cmpImm _ | .cmpZp _ | .cmpZpX _ | .cmpAbs _ | .cmpAbsX _ | .cmpAbsY _ | .cmpIndX _ | .cmpIndY _ => .cmp
  | .cpxImm _ | .cpxZp _ | .cpxAbs _ => .cpx
  | .cpyImm _ | .cpyZp _ | .cpyAbs _ => .cpy
  | .bitZp _ | .bitAbs _ => .bit
  | .incZp _ | .incZpX _ | .incAbs _ | .incAbsX _ => .inc
  | .decZp _ | .decZpX _ | .decAbs _ | .decAbsX _ => .dec
  | .inx => .inx
  | .iny => .iny
  | .dex => .dex
  | .dey => .dey
  | .aslAcc | .aslZp _ | .aslZpX _ | .aslAbs _ | .aslAbsX _ => .asl
  | .lsrAcc | .lsrZp _ | .lsrZpX _ | .lsrAbs _ | .lsrAbsX _ => .lsr
  | .rolAcc | .rolZp _ | .rolZpX _ | .rolAbs _ | .rolAbsX _ => .rol
  | .rorAcc | .rorZp _ | .rorZpX _ | .rorAbs _ | .rorAbsX _ => .ror
  | .jmpAbs _ | .jmpInd _ => .jmp
  | .jsrAbs _ => .jsr
  | .rts => .rts
  | .bcc _ => .bcc
  | .bcs _ => .bcs
  | .beq _ => .beq
  | .bne _ => .bne
  | .bmi _ => .bmi
  | .bpl _ => .bpl
  | .bvc _ => .bvc
  | .bvs _ => .bvs
  | .brk => .brk
  | .rti => .rti
  | .nop => .nop
  | .clc => .clc
  | .cld => .cld
  | .cli => .cli
  | .clv => .clv
  | .sec => .sec
  | .sed => .sed
  | .sei => .sei

/-- The operand of an instruction, in its addressing mode. -/
def Instr.operand : Instr → Operand
  | .tax | .tay | .txa | .tya | .tsx | .txs | .pha | .php | .pla | .plp => .implicit
  | .inx | .iny | .dex | .dey | .rts | .brk | .rti | .nop | .clc | .cld => .implicit
  | .cli | .clv | .sec | .sed | .sei => .implicit
  | .ldaImm v => .immediate v
  | .ldaZp zp => .mem (.zeroPage zp)
  | .ldaZpX zp => .mem (.zeroPageX zp)
  | .ldaAbs addr => .mem (.absolute addr)
  | .ldaAbsX base => .mem (.absoluteX base)
  | .ldaAbsY base => .mem (.absoluteY base)
  | .ldaIndX zp => .mem (.indirectX zp)
  | .ldaIndY zp => .mem (.indirectY zp)
  | .ldxImm v => .immediate v
  | .ldxZp zp => .mem (.zeroPage zp)
  | .ldxZpY zp => .mem (.zeroPageY zp)
  | .ldxAbs addr => .mem (.absolute addr)
  | .ldxAbsY base => .mem (.absoluteY base)
  | .ldyImm v => .immediate v
  | .ldyZp zp => .mem (.zeroPage zp)
  | .ldyZpX zp => .mem (.zeroPageX zp)
  | .ldyAbs addr => .mem (.absolute addr)
  | .ldyAbsX base => .mem (.absoluteX base)
  | .staZp zp => .mem (.zeroPage zp)
  | .staZpX zp => .mem (.zeroPageX zp)
  | .staAbs addr => .mem (.absolute addr)
  | .staAbsX base => .mem (.absoluteX base)
  | .staAbsY base => .mem (.absoluteY base)
  | .staIndX zp => .mem (.indirectX zp)
  | .staIndY zp => .mem (.indirectY zp)
  | .stxZp zp => .mem (.zeroPage zp)
  | .stxZpY zp => .mem (.zeroPageY zp)
  | .stxAbs addr => .mem (.absolute addr)
  | .styZp zp => .mem (.zeroPage zp)
  | .styZpX zp => .mem (.zeroPageX zp)
  | .styAbs addr => .mem (.absolute addr)
  | .adcImm v => .immediate v
  | .adcZp zp => .mem (.zeroPage zp)
  | .adcZpX zp => .mem (.zeroPageX zp)
  | .adcAbs addr => .mem (.absolute addr)
  | .adcAbsX base => .mem (.absoluteX base)
  | .adcAbsY base => .mem (.absoluteY base)
  | .adcIndX zp => .mem (.indirectX zp)
  | .adcIndY zp => .mem (.indirectY zp)
  | .sbcImm v => .immediate v
  | .sbcZp zp => .mem (.zeroPage zp)
  | .sbcZpX zp => .mem (.zeroPageX zp)
  | .sbcAbs addr => .mem (.absolute addr)
  | .sbcAbsX base => .mem (.absoluteX base)
  | .sbcAbsY base => .mem (.absoluteY base)
  | .sbcIndX zp => .mem (.indirectX zp)
  | .sbcIndY zp => .mem (.indirectY zp)
  | .andImm v => .immediate v
  | .andZp zp => .mem (.zeroPage zp)
  | .andZpX zp => .mem (.zeroPageX zp)
  | .andAbs addr => .mem (.absolute addr)
  | .andAbsX base => .mem (.absoluteX base)
  | .andAbsY base => .mem (.absoluteY base)
  | .andIndX zp => .mem (.indirectX zp)
  | .andIndY zp => .mem (.indirectY zp)
  | .oraImm v => .immediate v
  | .oraZp zp => .mem (.zeroPage zp)
  | .oraZpX zp => .mem (.zeroPageX zp)
  | .oraAbs addr => .mem (.absolute addr)
  | .oraAbsX base => .mem (.absoluteX base)
  | .oraAbsY base => .mem (.absoluteY base)
  | .oraIndX zp => .mem (.indirectX zp)
  | .oraIndY zp => .mem (.indirectY zp)
  | .eorImm v => .immediate v
  | .eorZp zp => .mem (.zeroPage zp)
  | .eorZpX zp => .mem (.zeroPageX zp)
  | .eorAbs addr => .mem (.absolute addr)
  | .eorAbsX base => .mem (.absoluteX base)
  | .eorAbsY base => .mem (.absoluteY base)
  | .eorIndX zp => .mem (.indirectX zp)
  | .eorIndY zp => .mem (.indirectY zp)
  | .cmpImm v => .immediate v
  | .cmpZp zp => .mem (.zeroPage zp)
  | .cmpZpX zp => .mem (.zeroPageX zp)
  | .cmpAbs addr => .mem (.absolute addr)
  | .cmpAbsX base => .mem (.absoluteX base)
  | .cmpAbsY base => .mem (.absoluteY base)
  | .cmpIndX zp => .mem (.indirectX zp)
  | .cmpIndY zp => .mem (.indirectY zp)
  | .cpxImm v => .immediate v
  | .cpxZp zp => .mem (.zeroPage zp)
  | .cpxAbs addr => .mem (.absolute addr)
  | .cpyImm v => .immediate v
  | .cpyZp zp => .mem (.zeroPage zp)
  | .cpyAbs addr => .mem (.absolute addr)
  | .bitZp zp => .mem (.zeroPage zp)
  | .bitAbs addr => .mem (.absolute addr)
  | .incZp zp => .mem (.zeroPage zp)
  | .incZpX zp => .mem (.zeroPageX zp)
  | .incAbs addr => .mem (.absolute addr)
  | .incAbsX base => .mem (.absoluteX base)
  | .decZp zp => .mem (.zeroPage zp)
  | .decZpX zp => .mem (.zeroPageX zp)
  | .decAbs addr => .mem (.absolute addr)
  | .decAbsX base => .mem (.absoluteX base)
  | .aslAcc => .accumulator
  | .aslZp zp => .mem (.zeroPage zp)
  | .aslZpX zp => .mem (.zeroPageX zp)
  | .aslAbs addr => .mem (.absolute addr)
  | .aslAbsX base => .mem (.absoluteX base)
  | .lsrAcc => .accumulator
  | .lsrZp zp => .mem (.zeroPage zp)
  | .lsrZpX zp => .mem (.zeroPageX zp)
  | .lsrAbs addr => .mem (.absolute addr)
  | .lsrAbsX base => .mem (.absoluteX base)
  | .rolAcc => .accumulator
  | .rolZp zp => .mem (.zeroPage zp)
  | .rolZpX zp => .mem (.zeroPageX zp)
  | .rolAbs addr => .mem (.absolute addr)
  | .rolAbsX base => .mem (.absoluteX base)
  | .rorAcc => .accumulator
  | .rorZp zp => .mem (.zeroPage zp)
  | .rorZpX zp => .mem (.zeroPageX zp)
  | .rorAbs addr => .mem (.absolute addr)
  | .rorAbsX base => .mem (.absoluteX base)
  | .jmpAbs addr => .mem (.absolute addr)
  | .jmpInd ptr => .mem (.indirect ptr)
  | .jsrAbs addr => .mem (.absolute addr)
  | .bcc disp => .mem (.relative disp)
  | .bcs disp => .mem (.relative disp)
  | .beq disp => .mem (.relative disp)
  | .bne disp => .mem (.relative disp)
  | .bmi disp => .mem (.relative disp)
  | .bpl disp => .mem (.relative disp)
  | .bvc disp => .mem (.relative disp)
  | .bvs disp => .mem (.relative disp)

/-- The addressing mode of an instruction. -/
def Instr.mode (i : Instr) : Mode := i.operand.mode

end Sys2Proof
end

