-- ==== Sys2Proof/WellFormed.lean ====
section
/-! DEFINITION. Which instructions are well formed. A constructor of `Instr` carries an operand of its mode's own
width, so every `Instr` is well formed (Laws/PerInstr.lean); the checks below say what that means for the decoded
record of 10_state.md R48, whose operand has one width for all modes. -/

namespace Sys2Proof

/-- The modes each mnemonic declares: the 'Operands' line of its rule (41_load_store_transfer.md to
46_system_flags.md), which agrees with 30_encoding.md R113. -/
def Mnemonic.modes : Mnemonic → List Mode
  | .lda | .adc | .sbc | .and | .ora | .eor | .cmp =>
    [.immediate, .zeroPage, .zeroPageX, .absolute, .absoluteX, .absoluteY, .indirectX, .indirectY]
  | .ldx =>
    [.immediate, .zeroPage, .zeroPageY, .absolute, .absoluteY]
  | .ldy =>
    [.immediate, .zeroPage, .zeroPageX, .absolute, .absoluteX]
  | .sta =>
    [.zeroPage, .zeroPageX, .absolute, .absoluteX, .absoluteY, .indirectX, .indirectY]
  | .stx =>
    [.zeroPage, .zeroPageY, .absolute]
  | .sty =>
    [.zeroPage, .zeroPageX, .absolute]
  | .tax | .tay | .txa | .tya | .tsx | .txs | .pha | .php | .pla | .plp | .inx | .iny
  | .dex | .dey | .rts | .brk | .rti | .nop | .clc | .cld | .cli | .clv | .sec | .sed
  | .sei =>
    [.implicit]
  | .cpx | .cpy =>
    [.immediate, .zeroPage, .absolute]
  | .bit =>
    [.zeroPage, .absolute]
  | .inc | .dec =>
    [.zeroPage, .zeroPageX, .absolute, .absoluteX]
  | .asl | .lsr | .rol | .ror =>
    [.accumulator, .zeroPage, .zeroPageX, .absolute, .absoluteX]
  | .jmp =>
    [.absolute, .indirect]
  | .jsr =>
    [.absolute]
  | .bcc | .bcs | .beq | .bne | .bmi | .bpl | .bvc | .bvs =>
    [.relative]

/-- The decoded instruction of 10_state.md R48: it lives inside one step and is no field of the state. -/
structure Record where
  mnemonic : Mnemonic
  mode : Mode
  opcode : Byte
  operand : Word
  deriving DecidableEq, Repr

/-- The mnemonic declares the mode (30_encoding.md R110, R111). -/
def Record.pairDeclared (r : Record) : Bool := r.mnemonic.modes.contains r.mode

/-- The operand fits the bytes its mode has (10_state.md R48; 30_encoding.md R104); with no operand byte it is 0
(30_encoding.md R121). -/
def Record.operandFits (r : Record) : Bool := decide (r.operand.toNat < 256 ^ r.mode.operandBytes)

/-- A record the decoder can produce, but for its opcode byte, which Decode.lean checks (`Record.opcodeMatches`). -/
def Record.wellFormed (r : Record) : Bool := r.pairDeclared && r.operandFits

/-- The number the operand bytes give (00_scope.md, glossary 'Operand'); 0 where there is none. -/
def MemOperand.value : MemOperand → Word
  | .zeroPage zp | .zeroPageX zp | .zeroPageY zp | .indirectX zp | .indirectY zp => zext16 zp
  | .relative disp => zext16 disp
  | .absolute addr => addr
  | .absoluteX base | .absoluteY base => base
  | .indirect ptr => ptr

/-- The number the operand bytes give; 0 where there is none (30_encoding.md R104, R121). -/
def Operand.value : Operand → Word
  | .implicit | .accumulator => 0
  | .immediate v => zext16 v
  | .mem m => m.value

/-- An instruction is well formed when its mnemonic declares its mode and its operand fits the mode. -/
def Instr.wellFormed (i : Instr) : Bool :=
  i.mnemonic.modes.contains i.mode && decide (i.operand.value.toNat < 256 ^ i.mode.operandBytes)

end Sys2Proof
end

