-- ==== Sys2Proof/Decode.lean ====
section
/-! DEFINITION. Decode and encode (30_encoding.md). The decoder is one function of a byte source (R123): a buffer, or
the bus with the advancing program counter. It reads the opcode byte whole, through the 256-entry catalog of R112,
never by sub-fields (R102). -/

namespace Sys2Proof

/-- The three formats (30_encoding.md R100), each with what it builds from its operand bytes. -/
inductive Format where
  /-- F1: the opcode alone. -/
  | f1 (i : Instr)
  /-- F2: the opcode and one operand byte. -/
  | f2 (mk : Byte → Instr)
  /-- F3: the opcode and two operand bytes, low byte first. -/
  | f3 (mk : Word → Instr)

/-- One entry of the catalog: the opcode byte, its mnemonic and mode, and its format. -/
structure CatalogRow where
  opcode : Byte
  mnemonic : Mnemonic
  mode : Mode
  format : Format

/-- Row 0x of the opcode map (30_encoding.md R112). -/
def catalogRow0x : List CatalogRow := [
  ⟨0x00, .brk, .implicit, .f1 .brk⟩,
  ⟨0x01, .ora, .indirectX, .f2 .oraIndX⟩,
  ⟨0x05, .ora, .zeroPage, .f2 .oraZp⟩,
  ⟨0x06, .asl, .zeroPage, .f2 .aslZp⟩,
  ⟨0x08, .php, .implicit, .f1 .php⟩,
  ⟨0x09, .ora, .immediate, .f2 .oraImm⟩,
  ⟨0x0A, .asl, .accumulator, .f1 .aslAcc⟩,
  ⟨0x0D, .ora, .absolute, .f3 .oraAbs⟩,
  ⟨0x0E, .asl, .absolute, .f3 .aslAbs⟩]

/-- Row 1x of the opcode map (30_encoding.md R112). -/
def catalogRow1x : List CatalogRow := [
  ⟨0x10, .bpl, .relative, .f2 .bpl⟩,
  ⟨0x11, .ora, .indirectY, .f2 .oraIndY⟩,
  ⟨0x15, .ora, .zeroPageX, .f2 .oraZpX⟩,
  ⟨0x16, .asl, .zeroPageX, .f2 .aslZpX⟩,
  ⟨0x18, .clc, .implicit, .f1 .clc⟩,
  ⟨0x19, .ora, .absoluteY, .f3 .oraAbsY⟩,
  ⟨0x1D, .ora, .absoluteX, .f3 .oraAbsX⟩,
  ⟨0x1E, .asl, .absoluteX, .f3 .aslAbsX⟩]

/-- Row 2x of the opcode map (30_encoding.md R112). -/
def catalogRow2x : List CatalogRow := [
  ⟨0x20, .jsr, .absolute, .f3 .jsrAbs⟩,
  ⟨0x21, .and, .indirectX, .f2 .andIndX⟩,
  ⟨0x24, .bit, .zeroPage, .f2 .bitZp⟩,
  ⟨0x25, .and, .zeroPage, .f2 .andZp⟩,
  ⟨0x26, .rol, .zeroPage, .f2 .rolZp⟩,
  ⟨0x28, .plp, .implicit, .f1 .plp⟩,
  ⟨0x29, .and, .immediate, .f2 .andImm⟩,
  ⟨0x2A, .rol, .accumulator, .f1 .rolAcc⟩,
  ⟨0x2C, .bit, .absolute, .f3 .bitAbs⟩,
  ⟨0x2D, .and, .absolute, .f3 .andAbs⟩,
  ⟨0x2E, .rol, .absolute, .f3 .rolAbs⟩]

/-- Row 3x of the opcode map (30_encoding.md R112). -/
def catalogRow3x : List CatalogRow := [
  ⟨0x30, .bmi, .relative, .f2 .bmi⟩,
  ⟨0x31, .and, .indirectY, .f2 .andIndY⟩,
  ⟨0x35, .and, .zeroPageX, .f2 .andZpX⟩,
  ⟨0x36, .rol, .zeroPageX, .f2 .rolZpX⟩,
  ⟨0x38, .sec, .implicit, .f1 .sec⟩,
  ⟨0x39, .and, .absoluteY, .f3 .andAbsY⟩,
  ⟨0x3D, .and, .absoluteX, .f3 .andAbsX⟩,
  ⟨0x3E, .rol, .absoluteX, .f3 .rolAbsX⟩]

/-- Row 4x of the opcode map (30_encoding.md R112). -/
def catalogRow4x : List CatalogRow := [
  ⟨0x40, .rti, .implicit, .f1 .rti⟩,
  ⟨0x41, .eor, .indirectX, .f2 .eorIndX⟩,
  ⟨0x45, .eor, .zeroPage, .f2 .eorZp⟩,
  ⟨0x46, .lsr, .zeroPage, .f2 .lsrZp⟩,
  ⟨0x48, .pha, .implicit, .f1 .pha⟩,
  ⟨0x49, .eor, .immediate, .f2 .eorImm⟩,
  ⟨0x4A, .lsr, .accumulator, .f1 .lsrAcc⟩,
  ⟨0x4C, .jmp, .absolute, .f3 .jmpAbs⟩,
  ⟨0x4D, .eor, .absolute, .f3 .eorAbs⟩,
  ⟨0x4E, .lsr, .absolute, .f3 .lsrAbs⟩]

/-- Row 5x of the opcode map (30_encoding.md R112). -/
def catalogRow5x : List CatalogRow := [
  ⟨0x50, .bvc, .relative, .f2 .bvc⟩,
  ⟨0x51, .eor, .indirectY, .f2 .eorIndY⟩,
  ⟨0x55, .eor, .zeroPageX, .f2 .eorZpX⟩,
  ⟨0x56, .lsr, .zeroPageX, .f2 .lsrZpX⟩,
  ⟨0x58, .cli, .implicit, .f1 .cli⟩,
  ⟨0x59, .eor, .absoluteY, .f3 .eorAbsY⟩,
  ⟨0x5D, .eor, .absoluteX, .f3 .eorAbsX⟩,
  ⟨0x5E, .lsr, .absoluteX, .f3 .lsrAbsX⟩]

/-- Row 6x of the opcode map (30_encoding.md R112). -/
def catalogRow6x : List CatalogRow := [
  ⟨0x60, .rts, .implicit, .f1 .rts⟩,
  ⟨0x61, .adc, .indirectX, .f2 .adcIndX⟩,
  ⟨0x65, .adc, .zeroPage, .f2 .adcZp⟩,
  ⟨0x66, .ror, .zeroPage, .f2 .rorZp⟩,
  ⟨0x68, .pla, .implicit, .f1 .pla⟩,
  ⟨0x69, .adc, .immediate, .f2 .adcImm⟩,
  ⟨0x6A, .ror, .accumulator, .f1 .rorAcc⟩,
  ⟨0x6C, .jmp, .indirect, .f3 .jmpInd⟩,
  ⟨0x6D, .adc, .absolute, .f3 .adcAbs⟩,
  ⟨0x6E, .ror, .absolute, .f3 .rorAbs⟩]

/-- Row 7x of the opcode map (30_encoding.md R112). -/
def catalogRow7x : List CatalogRow := [
  ⟨0x70, .bvs, .relative, .f2 .bvs⟩,
  ⟨0x71, .adc, .indirectY, .f2 .adcIndY⟩,
  ⟨0x75, .adc, .zeroPageX, .f2 .adcZpX⟩,
  ⟨0x76, .ror, .zeroPageX, .f2 .rorZpX⟩,
  ⟨0x78, .sei, .implicit, .f1 .sei⟩,
  ⟨0x79, .adc, .absoluteY, .f3 .adcAbsY⟩,
  ⟨0x7D, .adc, .absoluteX, .f3 .adcAbsX⟩,
  ⟨0x7E, .ror, .absoluteX, .f3 .rorAbsX⟩]

/-- Row 8x of the opcode map (30_encoding.md R112). -/
def catalogRow8x : List CatalogRow := [
  ⟨0x81, .sta, .indirectX, .f2 .staIndX⟩,
  ⟨0x84, .sty, .zeroPage, .f2 .styZp⟩,
  ⟨0x85, .sta, .zeroPage, .f2 .staZp⟩,
  ⟨0x86, .stx, .zeroPage, .f2 .stxZp⟩,
  ⟨0x88, .dey, .implicit, .f1 .dey⟩,
  ⟨0x8A, .txa, .implicit, .f1 .txa⟩,
  ⟨0x8C, .sty, .absolute, .f3 .styAbs⟩,
  ⟨0x8D, .sta, .absolute, .f3 .staAbs⟩,
  ⟨0x8E, .stx, .absolute, .f3 .stxAbs⟩]

/-- Row 9x of the opcode map (30_encoding.md R112). -/
def catalogRow9x : List CatalogRow := [
  ⟨0x90, .bcc, .relative, .f2 .bcc⟩,
  ⟨0x91, .sta, .indirectY, .f2 .staIndY⟩,
  ⟨0x94, .sty, .zeroPageX, .f2 .styZpX⟩,
  ⟨0x95, .sta, .zeroPageX, .f2 .staZpX⟩,
  ⟨0x96, .stx, .zeroPageY, .f2 .stxZpY⟩,
  ⟨0x98, .tya, .implicit, .f1 .tya⟩,
  ⟨0x99, .sta, .absoluteY, .f3 .staAbsY⟩,
  ⟨0x9A, .txs, .implicit, .f1 .txs⟩,
  ⟨0x9D, .sta, .absoluteX, .f3 .staAbsX⟩]

/-- Row Ax of the opcode map (30_encoding.md R112). -/
def catalogRowAx : List CatalogRow := [
  ⟨0xA0, .ldy, .immediate, .f2 .ldyImm⟩,
  ⟨0xA1, .lda, .indirectX, .f2 .ldaIndX⟩,
  ⟨0xA2, .ldx, .immediate, .f2 .ldxImm⟩,
  ⟨0xA4, .ldy, .zeroPage, .f2 .ldyZp⟩,
  ⟨0xA5, .lda, .zeroPage, .f2 .ldaZp⟩,
  ⟨0xA6, .ldx, .zeroPage, .f2 .ldxZp⟩,
  ⟨0xA8, .tay, .implicit, .f1 .tay⟩,
  ⟨0xA9, .lda, .immediate, .f2 .ldaImm⟩,
  ⟨0xAA, .tax, .implicit, .f1 .tax⟩,
  ⟨0xAC, .ldy, .absolute, .f3 .ldyAbs⟩,
  ⟨0xAD, .lda, .absolute, .f3 .ldaAbs⟩,
  ⟨0xAE, .ldx, .absolute, .f3 .ldxAbs⟩]

/-- Row Bx of the opcode map (30_encoding.md R112). -/
def catalogRowBx : List CatalogRow := [
  ⟨0xB0, .bcs, .relative, .f2 .bcs⟩,
  ⟨0xB1, .lda, .indirectY, .f2 .ldaIndY⟩,
  ⟨0xB4, .ldy, .zeroPageX, .f2 .ldyZpX⟩,
  ⟨0xB5, .lda, .zeroPageX, .f2 .ldaZpX⟩,
  ⟨0xB6, .ldx, .zeroPageY, .f2 .ldxZpY⟩,
  ⟨0xB8, .clv, .implicit, .f1 .clv⟩,
  ⟨0xB9, .lda, .absoluteY, .f3 .ldaAbsY⟩,
  ⟨0xBA, .tsx, .implicit, .f1 .tsx⟩,
  ⟨0xBC, .ldy, .absoluteX, .f3 .ldyAbsX⟩,
  ⟨0xBD, .lda, .absoluteX, .f3 .ldaAbsX⟩,
  ⟨0xBE, .ldx, .absoluteY, .f3 .ldxAbsY⟩]

/-- Row Cx of the opcode map (30_encoding.md R112). -/
def catalogRowCx : List CatalogRow := [
  ⟨0xC0, .cpy, .immediate, .f2 .cpyImm⟩,
  ⟨0xC1, .cmp, .indirectX, .f2 .cmpIndX⟩,
  ⟨0xC4, .cpy, .zeroPage, .f2 .cpyZp⟩,
  ⟨0xC5, .cmp, .zeroPage, .f2 .cmpZp⟩,
  ⟨0xC6, .dec, .zeroPage, .f2 .decZp⟩,
  ⟨0xC8, .iny, .implicit, .f1 .iny⟩,
  ⟨0xC9, .cmp, .immediate, .f2 .cmpImm⟩,
  ⟨0xCA, .dex, .implicit, .f1 .dex⟩,
  ⟨0xCC, .cpy, .absolute, .f3 .cpyAbs⟩,
  ⟨0xCD, .cmp, .absolute, .f3 .cmpAbs⟩,
  ⟨0xCE, .dec, .absolute, .f3 .decAbs⟩]

/-- Row Dx of the opcode map (30_encoding.md R112). -/
def catalogRowDx : List CatalogRow := [
  ⟨0xD0, .bne, .relative, .f2 .bne⟩,
  ⟨0xD1, .cmp, .indirectY, .f2 .cmpIndY⟩,
  ⟨0xD5, .cmp, .zeroPageX, .f2 .cmpZpX⟩,
  ⟨0xD6, .dec, .zeroPageX, .f2 .decZpX⟩,
  ⟨0xD8, .cld, .implicit, .f1 .cld⟩,
  ⟨0xD9, .cmp, .absoluteY, .f3 .cmpAbsY⟩,
  ⟨0xDD, .cmp, .absoluteX, .f3 .cmpAbsX⟩,
  ⟨0xDE, .dec, .absoluteX, .f3 .decAbsX⟩]

/-- Row Ex of the opcode map (30_encoding.md R112). -/
def catalogRowEx : List CatalogRow := [
  ⟨0xE0, .cpx, .immediate, .f2 .cpxImm⟩,
  ⟨0xE1, .sbc, .indirectX, .f2 .sbcIndX⟩,
  ⟨0xE4, .cpx, .zeroPage, .f2 .cpxZp⟩,
  ⟨0xE5, .sbc, .zeroPage, .f2 .sbcZp⟩,
  ⟨0xE6, .inc, .zeroPage, .f2 .incZp⟩,
  ⟨0xE8, .inx, .implicit, .f1 .inx⟩,
  ⟨0xE9, .sbc, .immediate, .f2 .sbcImm⟩,
  ⟨0xEA, .nop, .implicit, .f1 .nop⟩,
  ⟨0xEC, .cpx, .absolute, .f3 .cpxAbs⟩,
  ⟨0xED, .sbc, .absolute, .f3 .sbcAbs⟩,
  ⟨0xEE, .inc, .absolute, .f3 .incAbs⟩]

/-- Row Fx of the opcode map (30_encoding.md R112). -/
def catalogRowFx : List CatalogRow := [
  ⟨0xF0, .beq, .relative, .f2 .beq⟩,
  ⟨0xF1, .sbc, .indirectY, .f2 .sbcIndY⟩,
  ⟨0xF5, .sbc, .zeroPageX, .f2 .sbcZpX⟩,
  ⟨0xF6, .inc, .zeroPageX, .f2 .incZpX⟩,
  ⟨0xF8, .sed, .implicit, .f1 .sed⟩,
  ⟨0xF9, .sbc, .absoluteY, .f3 .sbcAbsY⟩,
  ⟨0xFD, .sbc, .absoluteX, .f3 .sbcAbsX⟩,
  ⟨0xFE, .inc, .absoluteX, .f3 .incAbsX⟩]

/-- The catalog: the whole opcode map, 151 entries; a byte with no entry is undefined (30_encoding.md R110, R112,
R115). -/
def catalog : List CatalogRow :=
  catalogRow0x ++ catalogRow1x ++ catalogRow2x ++ catalogRow3x ++ catalogRow4x ++ catalogRow5x ++ catalogRow6x ++
  catalogRow7x ++ catalogRow8x ++ catalogRow9x ++ catalogRowAx ++ catalogRowBx ++ catalogRowCx ++ catalogRowDx ++
  catalogRowEx ++ catalogRowFx

/-- The catalog's entry for an opcode byte. -/
def catalogRow? (opcode : Byte) : Option CatalogRow := catalog.find? (fun r => r.opcode == opcode)

/-- Why a lookup or a decode gives nothing. -/
inductive DecodeError where
  /-- The byte has no catalog entry (30_encoding.md R111, R115). -/
  | unknownOpcode (opcode : Byte)
  /-- The buffer ends inside an instruction: only a buffer can; the bus never does (20_memory.md R71). -/
  | truncated
  deriving DecidableEq, Repr

/-- `lookup_by_opcode` (30_encoding.md R111). -/
def lookupByOpcode (opcode : Byte) : Except DecodeError (Mnemonic × Mode) :=
  match catalogRow? opcode with
  | some r => .ok (r.mnemonic, r.mode)
  | none => .error (.unknownOpcode opcode)

/-- What the decoder makes of a byte source: an instruction, or an opcode byte with no entry; with the source after
the bytes it read. -/
inductive Decoded (σ : Type) where
  | instr (i : Instr) (rest : σ)
  | unknownOpcode (opcode : Byte) (rest : σ)
  deriving DecidableEq, Repr

/-- The operand bytes of a format, read from a byte source (30_encoding.md R104, R121): low byte first. -/
def Format.assemble {σ : Type} (fetch : σ → Byte × σ) (src : σ) : Format → Instr × σ
  | .f1 i => (i, src)
  | .f2 mk =>
    let b := fetch src
    (mk b.1, b.2)
  | .f3 mk =>
    let lo := fetch src
    let hi := fetch lo.2
    (mk (concat hi.1 lo.1), hi.2)

/-- Decode one instruction from a byte source (30_encoding.md R121, R123). -/
def decodeFrom {σ : Type} (fetch : σ → Byte × σ) (src : σ) : Decoded σ :=
  let op := fetch src
  match catalogRow? op.1 with
  | none => .unknownOpcode op.1 op.2
  | some r =>
    let d := r.format.assemble fetch op.2
    .instr d.1 d.2

/-- A buffer as a byte source (30_encoding.md R123). -/
def bufferFetch (bytes : List Byte) : Byte × List Byte := (bytes.headD 0, bytes.tail)

/-- How many bytes the instruction with this opcode byte has (30_encoding.md R103); 1 for a byte with no entry, which
is all the decoder reads of it (R121). -/
def instrLength (opcode : Byte) : Nat :=
  match catalogRow? opcode with
  | some r => 1 + r.mode.operandBytes
  | none => 1

/-- Decode the first instruction of a buffer, with the bytes after it; total on any bytes. -/
def decode (bytes : List Byte) : Except DecodeError (Instr × List Byte) :=
  match bytes with
  | [] => .error .truncated
  | opcode :: _ =>
    if bytes.length < instrLength opcode then .error .truncated
    else
      match decodeFrom bufferFetch bytes with
      | .instr i rest => .ok (i, rest)
      | .unknownOpcode b _ => .error (.unknownOpcode b)

/-- The instruction the decoder reads from an instruction whose bits are `w`, `nbits` of them, numbered as
spec/opcode_table.json numbers them: the first byte is bits 7..0, the next bits 15..8, the last bits 23..16; the bits
above `nbits` are 0. -/
def decodeTableWord (nbits w : Nat) : Option Instr :=
  match decode [BitVec.ofNat 8 (w % 2 ^ nbits), BitVec.ofNat 8 (w % 2 ^ nbits / 256),
      BitVec.ofNat 8 (w % 2 ^ nbits / 65536)] with
  | .ok (i, _) => some i
  | .error _ => none

/-- The encoder-side error of 30_encoding.md R111; the running core never raises it. -/
inductive EncodeError where
  | unsupportedMode (m : Mnemonic) (md : Mode)
  deriving DecidableEq, Repr

/-- The opcode bytes of each mnemonic by mode (30_encoding.md R113). -/
def opcodesOf : Mnemonic → List (Mode × Byte)
  | .lda =>
    [(.immediate, 0xA9), (.zeroPage, 0xA5), (.zeroPageX, 0xB5), (.absolute, 0xAD),
     (.absoluteX, 0xBD), (.absoluteY, 0xB9), (.indirectX, 0xA1), (.indirectY, 0xB1)]
  | .ldx =>
    [(.immediate, 0xA2), (.zeroPage, 0xA6), (.zeroPageY, 0xB6), (.absolute, 0xAE),
     (.absoluteY, 0xBE)]
  | .ldy =>
    [(.immediate, 0xA0), (.zeroPage, 0xA4), (.zeroPageX, 0xB4), (.absolute, 0xAC),
     (.absoluteX, 0xBC)]
  | .sta =>
    [(.zeroPage, 0x85), (.zeroPageX, 0x95), (.absolute, 0x8D), (.absoluteX, 0x9D),
     (.absoluteY, 0x99), (.indirectX, 0x81), (.indirectY, 0x91)]
  | .stx => [(.zeroPage, 0x86), (.zeroPageY, 0x96), (.absolute, 0x8E)]
  | .sty => [(.zeroPage, 0x84), (.zeroPageX, 0x94), (.absolute, 0x8C)]
  | .tax => [(.implicit, 0xAA)]
  | .tay => [(.implicit, 0xA8)]
  | .txa => [(.implicit, 0x8A)]
  | .tya => [(.implicit, 0x98)]
  | .tsx => [(.implicit, 0xBA)]
  | .txs => [(.implicit, 0x9A)]
  | .pha => [(.implicit, 0x48)]
  | .php => [(.implicit, 0x08)]
  | .pla => [(.implicit, 0x68)]
  | .plp => [(.implicit, 0x28)]
  | .adc =>
    [(.immediate, 0x69), (.zeroPage, 0x65), (.zeroPageX, 0x75), (.absolute, 0x6D),
     (.absoluteX, 0x7D), (.absoluteY, 0x79), (.indirectX, 0x61), (.indirectY, 0x71)]
  | .sbc =>
    [(.immediate, 0xE9), (.zeroPage, 0xE5), (.zeroPageX, 0xF5), (.absolute, 0xED),
     (.absoluteX, 0xFD), (.absoluteY, 0xF9), (.indirectX, 0xE1), (.indirectY, 0xF1)]
  | .and =>
    [(.immediate, 0x29), (.zeroPage, 0x25), (.zeroPageX, 0x35), (.absolute, 0x2D),
     (.absoluteX, 0x3D), (.absoluteY, 0x39), (.indirectX, 0x21), (.indirectY, 0x31)]
  | .ora =>
    [(.immediate, 0x09), (.zeroPage, 0x05), (.zeroPageX, 0x15), (.absolute, 0x0D),
     (.absoluteX, 0x1D), (.absoluteY, 0x19), (.indirectX, 0x01), (.indirectY, 0x11)]
  | .eor =>
    [(.immediate, 0x49), (.zeroPage, 0x45), (.zeroPageX, 0x55), (.absolute, 0x4D),
     (.absoluteX, 0x5D), (.absoluteY, 0x59), (.indirectX, 0x41), (.indirectY, 0x51)]
  | .cmp =>
    [(.immediate, 0xC9), (.zeroPage, 0xC5), (.zeroPageX, 0xD5), (.absolute, 0xCD),
     (.absoluteX, 0xDD), (.absoluteY, 0xD9), (.indirectX, 0xC1), (.indirectY, 0xD1)]
  | .cpx => [(.immediate, 0xE0), (.zeroPage, 0xE4), (.absolute, 0xEC)]
  | .cpy => [(.immediate, 0xC0), (.zeroPage, 0xC4), (.absolute, 0xCC)]
  | .bit => [(.zeroPage, 0x24), (.absolute, 0x2C)]
  | .inc => [(.zeroPage, 0xE6), (.zeroPageX, 0xF6), (.absolute, 0xEE), (.absoluteX, 0xFE)]
  | .dec => [(.zeroPage, 0xC6), (.zeroPageX, 0xD6), (.absolute, 0xCE), (.absoluteX, 0xDE)]
  | .inx => [(.implicit, 0xE8)]
  | .iny => [(.implicit, 0xC8)]
  | .dex => [(.implicit, 0xCA)]
  | .dey => [(.implicit, 0x88)]
  | .asl =>
    [(.accumulator, 0x0A), (.zeroPage, 0x06), (.zeroPageX, 0x16), (.absolute, 0x0E),
     (.absoluteX, 0x1E)]
  | .lsr =>
    [(.accumulator, 0x4A), (.zeroPage, 0x46), (.zeroPageX, 0x56), (.absolute, 0x4E),
     (.absoluteX, 0x5E)]
  | .rol =>
    [(.accumulator, 0x2A), (.zeroPage, 0x26), (.zeroPageX, 0x36), (.absolute, 0x2E),
     (.absoluteX, 0x3E)]
  | .ror =>
    [(.accumulator, 0x6A), (.zeroPage, 0x66), (.zeroPageX, 0x76), (.absolute, 0x6E),
     (.absoluteX, 0x7E)]
  | .jmp => [(.absolute, 0x4C), (.indirect, 0x6C)]
  | .jsr => [(.absolute, 0x20)]
  | .rts => [(.implicit, 0x60)]
  | .bcc => [(.relative, 0x90)]
  | .bcs => [(.relative, 0xB0)]
  | .beq => [(.relative, 0xF0)]
  | .bne => [(.relative, 0xD0)]
  | .bmi => [(.relative, 0x30)]
  | .bpl => [(.relative, 0x10)]
  | .bvc => [(.relative, 0x50)]
  | .bvs => [(.relative, 0x70)]
  | .brk => [(.implicit, 0x00)]
  | .rti => [(.implicit, 0x40)]
  | .nop => [(.implicit, 0xEA)]
  | .clc => [(.implicit, 0x18)]
  | .cld => [(.implicit, 0xD8)]
  | .cli => [(.implicit, 0x58)]
  | .clv => [(.implicit, 0xB8)]
  | .sec => [(.implicit, 0x38)]
  | .sed => [(.implicit, 0xF8)]
  | .sei => [(.implicit, 0x78)]

/-- `lookup_by_mode` (30_encoding.md R111). -/
def lookupByMode (m : Mnemonic) (md : Mode) : Except EncodeError Byte :=
  match (opcodesOf m).lookup md with
  | some b => .ok b
  | none => .error (.unsupportedMode m md)

/-- The operand bytes, low byte first, as many as the mode has (30_encoding.md R100, R104). -/
def operandBytes (md : Mode) (operand : Word) : List Byte :=
  match md.operandBytes with
  | 0 => []
  | 1 => [loByte operand]
  | _ => [loByte operand, hiByte operand]

/-- The encoder on a decoded record (30_encoding.md R124). -/
def encodeRecord (r : Record) : Except EncodeError (List Byte) :=
  match lookupByMode r.mnemonic r.mode with
  | .ok b => .ok (b :: operandBytes r.mode r.operand)
  | .error e => .error e

/-- The opcode byte of an instruction (30_encoding.md R113). -/
def Instr.opcode : Instr → Byte
  | .ldaImm _ => 0xA9
  | .ldaZp _ => 0xA5
  | .ldaZpX _ => 0xB5
  | .ldaAbs _ => 0xAD
  | .ldaAbsX _ => 0xBD
  | .ldaAbsY _ => 0xB9
  | .ldaIndX _ => 0xA1
  | .ldaIndY _ => 0xB1
  | .ldxImm _ => 0xA2
  | .ldxZp _ => 0xA6
  | .ldxZpY _ => 0xB6
  | .ldxAbs _ => 0xAE
  | .ldxAbsY _ => 0xBE
  | .ldyImm _ => 0xA0
  | .ldyZp _ => 0xA4
  | .ldyZpX _ => 0xB4
  | .ldyAbs _ => 0xAC
  | .ldyAbsX _ => 0xBC
  | .staZp _ => 0x85
  | .staZpX _ => 0x95
  | .staAbs _ => 0x8D
  | .staAbsX _ => 0x9D
  | .staAbsY _ => 0x99
  | .staIndX _ => 0x81
  | .staIndY _ => 0x91
  | .stxZp _ => 0x86
  | .stxZpY _ => 0x96
  | .stxAbs _ => 0x8E
  | .styZp _ => 0x84
  | .styZpX _ => 0x94
  | .styAbs _ => 0x8C
  | .tax => 0xAA
  | .tay => 0xA8
  | .txa => 0x8A
  | .tya => 0x98
  | .tsx => 0xBA
  | .txs => 0x9A
  | .pha => 0x48
  | .php => 0x08
  | .pla => 0x68
  | .plp => 0x28
  | .adcImm _ => 0x69
  | .adcZp _ => 0x65
  | .adcZpX _ => 0x75
  | .adcAbs _ => 0x6D
  | .adcAbsX _ => 0x7D
  | .adcAbsY _ => 0x79
  | .adcIndX _ => 0x61
  | .adcIndY _ => 0x71
  | .sbcImm _ => 0xE9
  | .sbcZp _ => 0xE5
  | .sbcZpX _ => 0xF5
  | .sbcAbs _ => 0xED
  | .sbcAbsX _ => 0xFD
  | .sbcAbsY _ => 0xF9
  | .sbcIndX _ => 0xE1
  | .sbcIndY _ => 0xF1
  | .andImm _ => 0x29
  | .andZp _ => 0x25
  | .andZpX _ => 0x35
  | .andAbs _ => 0x2D
  | .andAbsX _ => 0x3D
  | .andAbsY _ => 0x39
  | .andIndX _ => 0x21
  | .andIndY _ => 0x31
  | .oraImm _ => 0x09
  | .oraZp _ => 0x05
  | .oraZpX _ => 0x15
  | .oraAbs _ => 0x0D
  | .oraAbsX _ => 0x1D
  | .oraAbsY _ => 0x19
  | .oraIndX _ => 0x01
  | .oraIndY _ => 0x11
  | .eorImm _ => 0x49
  | .eorZp _ => 0x45
  | .eorZpX _ => 0x55
  | .eorAbs _ => 0x4D
  | .eorAbsX _ => 0x5D
  | .eorAbsY _ => 0x59
  | .eorIndX _ => 0x41
  | .eorIndY _ => 0x51
  | .cmpImm _ => 0xC9
  | .cmpZp _ => 0xC5
  | .cmpZpX _ => 0xD5
  | .cmpAbs _ => 0xCD
  | .cmpAbsX _ => 0xDD
  | .cmpAbsY _ => 0xD9
  | .cmpIndX _ => 0xC1
  | .cmpIndY _ => 0xD1
  | .cpxImm _ => 0xE0
  | .cpxZp _ => 0xE4
  | .cpxAbs _ => 0xEC
  | .cpyImm _ => 0xC0
  | .cpyZp _ => 0xC4
  | .cpyAbs _ => 0xCC
  | .bitZp _ => 0x24
  | .bitAbs _ => 0x2C
  | .incZp _ => 0xE6
  | .incZpX _ => 0xF6
  | .incAbs _ => 0xEE
  | .incAbsX _ => 0xFE
  | .decZp _ => 0xC6
  | .decZpX _ => 0xD6
  | .decAbs _ => 0xCE
  | .decAbsX _ => 0xDE
  | .inx => 0xE8
  | .iny => 0xC8
  | .dex => 0xCA
  | .dey => 0x88
  | .aslAcc => 0x0A
  | .aslZp _ => 0x06
  | .aslZpX _ => 0x16
  | .aslAbs _ => 0x0E
  | .aslAbsX _ => 0x1E
  | .lsrAcc => 0x4A
  | .lsrZp _ => 0x46
  | .lsrZpX _ => 0x56
  | .lsrAbs _ => 0x4E
  | .lsrAbsX _ => 0x5E
  | .rolAcc => 0x2A
  | .rolZp _ => 0x26
  | .rolZpX _ => 0x36
  | .rolAbs _ => 0x2E
  | .rolAbsX _ => 0x3E
  | .rorAcc => 0x6A
  | .rorZp _ => 0x66
  | .rorZpX _ => 0x76
  | .rorAbs _ => 0x6E
  | .rorAbsX _ => 0x7E
  | .jmpAbs _ => 0x4C
  | .jmpInd _ => 0x6C
  | .jsrAbs _ => 0x20
  | .rts => 0x60
  | .bcc _ => 0x90
  | .bcs _ => 0xB0
  | .beq _ => 0xF0
  | .bne _ => 0xD0
  | .bmi _ => 0x30
  | .bpl _ => 0x10
  | .bvc _ => 0x50
  | .bvs _ => 0x70
  | .brk => 0x00
  | .rti => 0x40
  | .nop => 0xEA
  | .clc => 0x18
  | .cld => 0xD8
  | .cli => 0x58
  | .clv => 0xB8
  | .sec => 0x38
  | .sed => 0xF8
  | .sei => 0x78

/-- The decoded record of an instruction (10_state.md R48). -/
def Instr.record (i : Instr) : Record := ⟨i.mnemonic, i.mode, i.opcode, i.operand.value⟩

/-- The record's opcode byte is the catalog's for its mnemonic and mode (30_encoding.md R110). -/
def Record.opcodeMatches (r : Record) : Bool := (opcodesOf r.mnemonic).lookup r.mode == some r.opcode

/-- The bytes of an instruction: its opcode, then its operand bytes, low byte first (30_encoding.md R100, R124). -/
def encode (i : Instr) : List Byte := i.opcode :: operandBytes i.mode i.operand.value

/-- The length of an instruction in bytes (30_encoding.md R100, R103). -/
def Instr.length (i : Instr) : Nat := 1 + i.mode.operandBytes

end Sys2Proof
end

