-- ==== Sys2Proof/Machine/State.lean ====
section
/-! DEFINITION. The state of the micro_6502 CORE as plain data (10_state.md), the reasons a step can stop, and the
state after reset (10_state.md R53; 70_reset_and_hazards.md R400 to R404). -/

namespace Sys2Proof.Machine

/-- The core's three faults (60_exceptions.md R360). A step RAISES one by answering the next state that R361 and R362
describe, with the engine Faulted; a step FROM a Faulted engine answers it as `Host.Outcome.fault`, because a run on a
Faulted engine returns the same fault and executes nothing (R386). Safe: the hardware does no more there
(notes/assumptions/1.md). -/
inductive Fault where
  /-- Raised by decode on an opcode byte with no catalog entry (30_encoding.md R121), with that byte. Safe. -/
  | unknownOpcode (opcode : Byte)
  /-- Raised by Push at SP = 0x00 (42_stack.md R200): PHA, PHP, JSR, a taken BRK. Safe. -/
  | stackOverflow
  /-- Raised by Pull at SP = 0xFF (42_stack.md R201): PLA, PLP, RTS, RTI. Safe. -/
  | stackUnderflow
  deriving DecidableEq, Repr

/-- Why exec has no meaning for an instruction. No arm of this model uses it: every instruction has its meaning. -/
inductive Refusal where
  /-- Raised by an arm of exec whose instruction has no meaning yet. Safe: the machine stops there. -/
  | notModelled (mnemonic : String)
  deriving DecidableEq, Repr

/-- The engine states (10_state.md R50). `faulted f` carries the fault record (R51). -/
inductive EngineState where
  | idle
  | running
  | suspended
  | faulted (f : Fault)
  deriving DecidableEq, Repr

/-- The six registers by their configuration keys (10_state.md R30; 70_reset_and_hazards.md R402). -/
inductive RegKey where
  | pc | sp | a | x | y | flags
  deriving DecidableEq, Repr

/-- The register file (10_state.md R30), as the host's halt predicate sees it (60_exceptions.md R380). -/
structure Registers where
  pc : Word
  sp : Byte
  a : Byte
  x : Byte
  y : Byte
  p : Byte
  deriving DecidableEq, Repr

/-- Memory: the bytes other than 0x00, by address. An address that is not listed reads 0x00 (20_memory.md R71,
"0 if never written"). -/
abbrev Memory := List Host.Cell

/-- The canonical form from an address on: addresses strictly rising from `lo`, below 65536, no byte 0x00. -/
def Memory.wfFrom : Nat → Memory → Bool
  | _, [] => true
  | lo, (addr, v) :: rest => decide (lo ≤ addr) && decide (addr < 65536) && v != 0 && Memory.wfFrom (addr + 1) rest

/-- The canonical form of a memory: equal memories are equal lists (20_memory.md R70, R71). -/
def Memory.wf (m : Memory) : Bool := Memory.wfFrom 0 m

/-- The state of the machine: the register file, memory and the engine state (10_state.md R30, R50, R51, R52;
20_memory.md R70). -/
structure State where
  pc : Word
  sp : Byte
  a : Byte
  x : Byte
  y : Byte
  p : Byte
  mem : Memory
  engine : EngineState
  deriving DecidableEq, Repr

/-- The fault record: empty unless the engine is Faulted (10_state.md R51). -/
def State.faultRecord (s : State) : Option Fault :=
  match s.engine with
  | .faulted f => some f
  | .idle | .running | .suspended => none

/-- The register file as one value (10_state.md R30). -/
def State.registers (s : State) : Registers := ⟨s.pc, s.sp, s.a, s.x, s.y, s.p⟩

/-- `PC <- v` (10_state.md R31). -/
def State.setPc (s : State) (v : Word) : State := { s with pc := v }
/-- `SP <- v` (10_state.md R35). -/
def State.setSp (s : State) (v : Byte) : State := { s with sp := v }
/-- `A <- v` (10_state.md R32). -/
def State.setA (s : State) (v : Byte) : State := { s with a := v }
/-- `X <- v` (10_state.md R33). -/
def State.setX (s : State) (v : Byte) : State := { s with x := v }
/-- `Y <- v` (10_state.md R34). -/
def State.setY (s : State) (v : Byte) : State := { s with y := v }
/-- P written whole (10_state.md R38). -/
def State.setP (s : State) (v : Byte) : State := { s with p := v }
/-- Memory replaced (20_memory.md R72 is built on it in Machine/Ops.lean). -/
def State.setMem (s : State) (v : Memory) : State := { s with mem := v }
/-- `engine <- v` (10_state.md R50). -/
def State.setEngine (s : State) (v : EngineState) : State := { s with engine := v }

/-- What a sequence of stack steps comes to: it is done with a value, or a step of it raised a fault and the rest does
not happen; with the state as the steps so far left it (42_stack.md R206). -/
inductive Attempt (α : Type) where
  | done (v : α) (s : State)
  | raised (f : Fault) (s : State)
  deriving DecidableEq, Repr

/-- What exec answers. -/
abbrev Result := Host.Outcome State Fault Refusal

/-- A created engine: memory all 0x00, the engine Idle, the registers at the launch parameters INIT_PC, INIT_SP,
INIT_A, INIT_X, INIT_Y and INIT_P (00_scope.md R9; 10_state.md R53; 70_reset_and_hazards.md R400). -/
def State.created (init : Registers) : State :=
  { pc := init.pc, sp := init.sp, a := init.a, x := init.x, y := init.y, p := init.p, mem := [], engine := .idle }

/-- The machine right after reset: PC is the reset vector's word, which is 0x0000 over memory with nothing written
(70_reset_and_hazards.md R401, R404; notes/assumptions/4.md); memory all 0x00; the engine Idle (R404). A, X, Y, SP and
P are 0x00, a DESIGN CHOICE: the spec states no value for them (R53, R403; notes/assumptions/3.md). -/
def State.reset : State := State.created ⟨0x0000, 0x00, 0x00, 0x00, 0x00, 0x00⟩

end Sys2Proof.Machine
end

