-- ==== Sys2Proof/Machine/Flags.lean ====
section
/-! DEFINITION. The bits of P (10_state.md R38, R39) and the ALU: every flag rule of 43_arith_logic.md and
44_shift_rotate.md, as functions of P. -/

namespace Sys2Proof.Machine

/-- The bits of P (10_state.md R38). -/
inductive Flag where
  | c | z | i | d | b | u | v | n
  deriving DecidableEq, Repr

/-- The mask of each bit (10_state.md R38). -/
def Flag.mask : Flag → Byte
  | .c => 0x01
  | .z => 0x02
  | .i => 0x04
  | .d => 0x08
  | .b => 0x10
  | .u => 0x20
  | .v => 0x40
  | .n => 0x80

/-- Is the bit set (10_state.md R39)? -/
def testFlag (f : Flag) (p : Byte) : Bool := (p &&& f.mask) != 0

/-- Set the bit (10_state.md R39). -/
def insertFlag (f : Flag) (p : Byte) : Byte := p ||| f.mask

/-- Clear the bit (10_state.md R39). -/
def removeFlag (f : Flag) (p : Byte) : Byte := p &&& ~~~f.mask

/-- Write the bit. -/
def writeFlag (f : Flag) (v : Bool) (p : Byte) : Byte := if v then insertFlag f p else removeFlag f p

/-- A bit of the register P. -/
def State.flag (s : State) (f : Flag) : Bool := testFlag f s.p

/-- A bit of the register P written, the others kept. -/
def State.setFlag (s : State) (f : Flag) (v : Bool) : State := s.setP (writeFlag f v s.p)

/-- `SetZN(v)` (43_arith_logic.md R230). -/
def setZN (v p : Byte) : Byte := writeFlag .n v.msb (writeFlag .z (v == 0) p)

/-- `SetZN(v)` on the register P. -/
def State.setZN (s : State) (v : Byte) : State := s.setP (Machine.setZN v s.p)

/-- What an ALU operation gives: the result byte and the new P. -/
structure AluOut where
  result : Byte
  p : Byte
  deriving DecidableEq, Repr

/-- C as a number. -/
def carryIn (p : Byte) : Nat := (testFlag .c p).toNat

/-- `Add(a, b)` under either reading of V (43_arith_logic.md R231). -/
def aluAddWith (rule : AdcVRule) (a b p : Byte) : AluOut :=
  let sum := a.toNat + b.toNat + carryIn p
  let r : Byte := BitVec.ofNat 8 sum
  let v := match rule with
    | .carry => decide (sum > 255)
    | .signed => ((a ^^^ r) &&& (b ^^^ r)).msb
  ⟨r, setZN r (writeFlag .v v (writeFlag .c (decide (sum > 255)) p))⟩

/-- `Add(a, b)` (43_arith_logic.md R231). -/
def aluAdd (a b p : Byte) : AluOut := aluAddWith Config.adcVRule a b p

/-- `Sub(a, b)` under either reading of V (43_arith_logic.md R232): C is a borrow in and a borrow out. -/
def aluSubWith (rule : SbcVRule) (a b p : Byte) : AluOut :=
  let d : Int := (a.toNat : Int) - b.toNat - carryIn p
  let r : Byte := BitVec.ofInt 8 d
  let p1 := writeFlag .c (decide (d < 0)) p
  let p2 := match rule with
    | .unchanged => p1
    | .signed => writeFlag .v ((a ^^^ b) &&& (a ^^^ r)).msb p1
  ⟨r, setZN r p2⟩

/-- `Sub(a, b)` (43_arith_logic.md R232). -/
def aluSub (a b p : Byte) : AluOut := aluSubWith Config.sbcVRule a b p

/-- `Compare(r, m)` under either reading of C (43_arith_logic.md R250): the new P. -/
def aluCompareWith (rule : CmpCRule) (r m p : Byte) : Byte :=
  let t : Int := (r.toNat : Int) - m.toNat
  let c := match rule with
    | .nmos => decide (t ≥ 0)
    | .borrow => decide (t < 0)
  setZN (BitVec.ofInt 8 t) (writeFlag .c c p)

/-- `Compare(r, m)` (43_arith_logic.md R250): the new P. -/
def aluCompare (r m p : Byte) : Byte := aluCompareWith Config.cmpCRule r m p

/-- BIT's flags (43_arith_logic.md R255): Z from `A & m`, N and V from the memory byte. -/
def aluBit (a m p : Byte) : Byte :=
  writeFlag .v (m.getLsbD 6) (writeFlag .n m.msb (writeFlag .z ((a &&& m) == 0) p))

/-- `Shl(a)` (44_shift_rotate.md R280). -/
def aluShl (a p : Byte) : AluOut :=
  let r := a <<< 1
  ⟨r, setZN r (writeFlag .c (a.getLsbD 7) p)⟩

/-- `Shr(a)` (44_shift_rotate.md R281). -/
def aluShr (a p : Byte) : AluOut :=
  let r := a >>> 1
  ⟨r, setZN r (writeFlag .c (a.getLsbD 0) p)⟩

/-- `Rol(a)`: the carry coming in goes to bit 0 (44_shift_rotate.md R282). -/
def aluRol (a p : Byte) : AluOut :=
  let r := (a <<< 1) ||| (if testFlag .c p then 0x01 else 0x00)
  ⟨r, setZN r (writeFlag .c (a.getLsbD 7) p)⟩

/-- `Ror(a)`: the carry coming in goes to bit 7 (44_shift_rotate.md R283). -/
def aluRor (a p : Byte) : AluOut :=
  let r := (a >>> 1) ||| (if testFlag .c p then 0x80 else 0x00)
  ⟨r, setZN r (writeFlag .c (a.getLsbD 0) p)⟩

end Sys2Proof.Machine
end

