-- ==== Sys2Proof/Machine/Ops.lean ====
section
/-! DEFINITION. The operations over memory, the stack and the program counter that the instructions share: bus reads
and writes (20_memory.md), fetch (30_encoding.md R120), the stack controller (42_stack.md), raising a fault
(60_exceptions.md R361), taking the trap and returning from it (R370, R371). -/

namespace Sys2Proof.Machine

/-- The byte at an address; 0x00 where nothing is listed (20_memory.md R71). -/
def Memory.read : Memory → Word → Byte
  | [], _ => 0
  | (k, v) :: rest, addr => if k = addr.toNat then v else Memory.read rest addr

/-- One cell, or none for 0x00, which is what an unlisted address reads as. -/
def Memory.cell (addr : Word) (v : Byte) : Memory := if v = 0 then [] else [(addr.toNat, v)]

/-- The byte stored at an address (20_memory.md R72), in the canonical form of `Memory.wf`. -/
def Memory.write : Memory → Word → Byte → Memory
  | [], addr, v => Memory.cell addr v
  | (k, w) :: rest, addr, v =>
    if addr.toNat < k then Memory.cell addr v ++ (k, w) :: rest
    else if addr.toNat = k then Memory.cell addr v ++ rest
    else (k, w) :: Memory.write rest addr v

/-- `MemRead(addr, 1)` (20_memory.md R71). -/
def State.read (s : State) (addr : Word) : Byte := s.mem.read addr

/-- `MemWrite(addr, 1, v)` (20_memory.md R72): it always succeeds (R73). -/
def State.write (s : State) (addr : Word) (v : Byte) : State := s.setMem (s.mem.write addr v)

/-- `Read16(addr)`: low byte first, the address of the high byte wrapping mod 65536 (20_memory.md R76). -/
def State.read16 (s : State) (addr : Word) : Word := concat (s.read (addr + 1)) (s.read addr)

/-- `Fetch()`: the byte at PC, and PC advanced mod 65536 (30_encoding.md R120). -/
def fetch (s : State) : Byte × State := (s.read s.pc, s.setPc (s.pc + 1))

/-- `Decode()` over the bus (30_encoding.md R121): after it, PC is past the bytes read. -/
def fetchDecode (s : State) : Decoded State := decodeFrom fetch s

/-- `raise F`: the engine becomes Faulted with the fault record set; nothing else changes (60_exceptions.md R361). -/
def raiseFault (f : Fault) (s : State) : State := s.setEngine (.faulted f)

/-- Go on with the value, unless a fault was raised (00_scope.md R13; 42_stack.md R206). -/
def Attempt.andThen {α β : Type} (t : Attempt α) (k : α → State → Attempt β) : Attempt β :=
  match t with
  | .done v s => k v s
  | .raised f s => .raised f s

/-- The state at the end of the instruction: what the steps left, or what raising the fault makes of it. -/
def Attempt.finish (t : Attempt Unit) : State :=
  match t with
  | .done _ s => s
  | .raised f s => raiseFault f s

/-- The byte address of the stack slot (10_state.md R35). -/
def stackSlot (sp : Byte) : Word := Config.stackPage + zext16 sp

/-- `Push(v)` (42_stack.md R200). -/
def push (v : Byte) (s : State) : Attempt Unit :=
  if s.sp = 0x00 then .raised .stackOverflow s
  else .done () ((s.write (stackSlot s.sp) v).setSp (s.sp - 1))

/-- `Pull()` (42_stack.md R201). -/
def pull (s : State) : Attempt Byte :=
  if s.sp = 0xFF then .raised .stackUnderflow s
  else .done (s.read (stackSlot (s.sp + 1))) (s.setSp (s.sp + 1))

/-- `PushPC(off)`: high byte first (42_stack.md R202). -/
def pushPc (off : Word) (s : State) : Attempt Unit :=
  (push (hiByte (s.pc + off)) s).andThen fun _ s1 => push (loByte (s.pc + off)) s1

/-- `PullPC(off)`: low byte first; PC is written only after both pulls (42_stack.md R203). -/
def pullPc (off : Word) (s : State) : Attempt Unit :=
  (pull s).andThen fun lo s1 =>
    (pull s1).andThen fun hi s2 => .done () (s2.setPc (concat hi lo + off))

/-- `PushFlags()`: P with bit 4 forced to 1; the register P is not changed (42_stack.md R204). -/
def pushFlags (s : State) : Attempt Unit := push (insertFlag .b s.p) s

/-- The new P of `PullFlags()`: the pulled byte, with the register's own bit 4 (42_stack.md R205). -/
def restoredP (pulled p : Byte) : Byte := writeFlag .b (testFlag .b p) pulled

/-- `PullFlags()` (42_stack.md R205). -/
def pullFlags (s : State) : Attempt Unit :=
  (pull s).andThen fun b s1 => .done () (s1.setP (restoredP b s1.p))

/-- TAKING THE TRAP, the core's one exception with an entry (60_exceptions.md R370; 46_system_flags.md R330): the
return address and P are pushed, PC is loaded from the IRQ vector, and the engine suspends; no bit of P changes. If a
push faults, the fault wins (R367). -/
def takeTrap (s : State) : State :=
  Attempt.finish <|
    (pushPc 1 s).andThen fun _ s1 =>
      (pushFlags s1).andThen fun _ s2 =>
        .done () ((s2.setPc (s2.read16 Config.irqVector)).setEngine .suspended)

/-- The return from the trap (60_exceptions.md R371; 46_system_flags.md R331): P but for B, then PC, from the stack; the
engine state does not change. -/
def returnFromTrap (s : State) : State :=
  Attempt.finish <| (pullFlags s).andThen fun _ s1 => pullPc 0 s1

/-- The engine taken to Running: `run` called from Idle or Suspended, or `should_break` answering false
(60_exceptions.md R380; notes/assumptions/2.md). -/
def State.resume (s : State) : State := s.setEngine .running

end Sys2Proof.Machine
end

