-- ==== Sys2Proof/Machine/Operands.lean ====
section
/-! DEFINITION. Effective addresses, and reading and writing operands, for every addressing mode (40_addressing.md). -/

namespace Sys2Proof.Machine

/-- `ZpRead16(p)` under either reading of where the high byte is (40_addressing.md R152). -/
def zpRead16With (wrap : Bool) (s : State) (p : Byte) : Word :=
  concat (s.read (if wrap then zext16 (p + 1) else zext16 p + 1)) (s.read (zext16 p))

/-- `ZpRead16(p)` (40_addressing.md R152). -/
def zpRead16 (s : State) (p : Byte) : Word := zpRead16With Config.zpPointerWrap s p

/-- `EA(mode, operand)` (40_addressing.md R140 to R148), from the registers and memory as they are in `s`. -/
def ea (m : MemOperand) (s : State) : Word :=
  match m with
  | .zeroPage zp => zext16 zp
  | .zeroPageX zp => zext16 (zp + s.x)
  | .zeroPageY zp => zext16 (zp + s.y)
  | .relative disp => s.pc + sext16 disp
  | .absolute addr => addr
  | .absoluteX base => base + zext16 s.x
  | .absoluteY base => base + zext16 s.y
  | .indirect ptr => s.read16 ptr
  | .indirectX zp => zpRead16 s (zp + s.x)
  | .indirectY zp => zpRead16 s zp + zext16 s.y

/-- `ReadOperand(mode, operand)` (40_addressing.md R158). -/
def readOperand (src : Source) (s : State) : Byte :=
  match src with
  | .accumulator => s.a
  | .immediate v => v
  | .mem m => s.read (ea m s)

/-- `WriteOperand(mode, operand, v)` (40_addressing.md R159). -/
def writeOperand (d : Dest) (v : Byte) (s : State) : State :=
  match d with
  | .accumulator => s.setA v
  | .mem m => s.write (ea m s) v

end Sys2Proof.Machine
end

