-- ==== Sys2Proof/Machine/Arith.lean ====
section
/-! DEFINITION. Arithmetic, logical, compare, bit test, increment and decrement (43_arith_logic.md). -/

namespace Sys2Proof.Machine

/-- A and P from an ALU result. -/
def State.setAluA (s : State) (out : AluOut) : State := (s.setA out.result).setP out.p

/-- ADC on any of its operands (R240); D is ignored (R236). -/
def doAdc (src : Source) (s : State) : State := s.setAluA (aluAdd s.a (readOperand src s) s.p)

/-- ADC Immediate, opcode 69 (R240). -/
def execAdcImm (v : Byte) (s : State) : Result := .next (doAdc (.immediate v) s)
/-- ADC ZeroPage, opcode 65 (R240). -/
def execAdcZp (zp : Byte) (s : State) : Result := .next (doAdc (.mem (.zeroPage zp)) s)
/-- ADC ZeroPageX, opcode 75 (R240). -/
def execAdcZpX (zp : Byte) (s : State) : Result := .next (doAdc (.mem (.zeroPageX zp)) s)
/-- ADC Absolute, opcode 6D (R240). -/
def execAdcAbs (addr : Word) (s : State) : Result := .next (doAdc (.mem (.absolute addr)) s)
/-- ADC AbsoluteX, opcode 7D (R240). -/
def execAdcAbsX (base : Word) (s : State) : Result := .next (doAdc (.mem (.absoluteX base)) s)
/-- ADC AbsoluteY, opcode 79 (R240). -/
def execAdcAbsY (base : Word) (s : State) : Result := .next (doAdc (.mem (.absoluteY base)) s)
/-- ADC IndirectX, opcode 61 (R240). -/
def execAdcIndX (zp : Byte) (s : State) : Result := .next (doAdc (.mem (.indirectX zp)) s)
/-- ADC IndirectY, opcode 71 (R240). -/
def execAdcIndY (zp : Byte) (s : State) : Result := .next (doAdc (.mem (.indirectY zp)) s)

/-- SBC on any of its operands (R241); D is ignored (R236). -/
def doSbc (src : Source) (s : State) : State := s.setAluA (aluSub s.a (readOperand src s) s.p)

/-- SBC Immediate, opcode E9 (R241). -/
def execSbcImm (v : Byte) (s : State) : Result := .next (doSbc (.immediate v) s)
/-- SBC ZeroPage, opcode E5 (R241). -/
def execSbcZp (zp : Byte) (s : State) : Result := .next (doSbc (.mem (.zeroPage zp)) s)
/-- SBC ZeroPageX, opcode F5 (R241). -/
def execSbcZpX (zp : Byte) (s : State) : Result := .next (doSbc (.mem (.zeroPageX zp)) s)
/-- SBC Absolute, opcode ED (R241). -/
def execSbcAbs (addr : Word) (s : State) : Result := .next (doSbc (.mem (.absolute addr)) s)
/-- SBC AbsoluteX, opcode FD (R241). -/
def execSbcAbsX (base : Word) (s : State) : Result := .next (doSbc (.mem (.absoluteX base)) s)
/-- SBC AbsoluteY, opcode F9 (R241). -/
def execSbcAbsY (base : Word) (s : State) : Result := .next (doSbc (.mem (.absoluteY base)) s)
/-- SBC IndirectX, opcode E1 (R241). -/
def execSbcIndX (zp : Byte) (s : State) : Result := .next (doSbc (.mem (.indirectX zp)) s)
/-- SBC IndirectY, opcode F1 (R241). -/
def execSbcIndY (zp : Byte) (s : State) : Result := .next (doSbc (.mem (.indirectY zp)) s)

/-- AND on any of its operands (R245). -/
def doAnd (src : Source) (s : State) : State :=
  let r := s.a &&& readOperand src s
  (s.setA r).setZN r

/-- AND Immediate, opcode 29 (R245). -/
def execAndImm (v : Byte) (s : State) : Result := .next (doAnd (.immediate v) s)
/-- AND ZeroPage, opcode 25 (R245). -/
def execAndZp (zp : Byte) (s : State) : Result := .next (doAnd (.mem (.zeroPage zp)) s)
/-- AND ZeroPageX, opcode 35 (R245). -/
def execAndZpX (zp : Byte) (s : State) : Result := .next (doAnd (.mem (.zeroPageX zp)) s)
/-- AND Absolute, opcode 2D (R245). -/
def execAndAbs (addr : Word) (s : State) : Result := .next (doAnd (.mem (.absolute addr)) s)
/-- AND AbsoluteX, opcode 3D (R245). -/
def execAndAbsX (base : Word) (s : State) : Result := .next (doAnd (.mem (.absoluteX base)) s)
/-- AND AbsoluteY, opcode 39 (R245). -/
def execAndAbsY (base : Word) (s : State) : Result := .next (doAnd (.mem (.absoluteY base)) s)
/-- AND IndirectX, opcode 21 (R245). -/
def execAndIndX (zp : Byte) (s : State) : Result := .next (doAnd (.mem (.indirectX zp)) s)
/-- AND IndirectY, opcode 31 (R245). -/
def execAndIndY (zp : Byte) (s : State) : Result := .next (doAnd (.mem (.indirectY zp)) s)

/-- ORA on any of its operands (R246). -/
def doOra (src : Source) (s : State) : State :=
  let r := s.a ||| readOperand src s
  (s.setA r).setZN r

/-- ORA Immediate, opcode 09 (R246). -/
def execOraImm (v : Byte) (s : State) : Result := .next (doOra (.immediate v) s)
/-- ORA ZeroPage, opcode 05 (R246). -/
def execOraZp (zp : Byte) (s : State) : Result := .next (doOra (.mem (.zeroPage zp)) s)
/-- ORA ZeroPageX, opcode 15 (R246). -/
def execOraZpX (zp : Byte) (s : State) : Result := .next (doOra (.mem (.zeroPageX zp)) s)
/-- ORA Absolute, opcode 0D (R246). -/
def execOraAbs (addr : Word) (s : State) : Result := .next (doOra (.mem (.absolute addr)) s)
/-- ORA AbsoluteX, opcode 1D (R246). -/
def execOraAbsX (base : Word) (s : State) : Result := .next (doOra (.mem (.absoluteX base)) s)
/-- ORA AbsoluteY, opcode 19 (R246). -/
def execOraAbsY (base : Word) (s : State) : Result := .next (doOra (.mem (.absoluteY base)) s)
/-- ORA IndirectX, opcode 01 (R246). -/
def execOraIndX (zp : Byte) (s : State) : Result := .next (doOra (.mem (.indirectX zp)) s)
/-- ORA IndirectY, opcode 11 (R246). -/
def execOraIndY (zp : Byte) (s : State) : Result := .next (doOra (.mem (.indirectY zp)) s)

/-- EOR on any of its operands (R247). -/
def doEor (src : Source) (s : State) : State :=
  let r := s.a ^^^ readOperand src s
  (s.setA r).setZN r

/-- EOR Immediate, opcode 49 (R247). -/
def execEorImm (v : Byte) (s : State) : Result := .next (doEor (.immediate v) s)
/-- EOR ZeroPage, opcode 45 (R247). -/
def execEorZp (zp : Byte) (s : State) : Result := .next (doEor (.mem (.zeroPage zp)) s)
/-- EOR ZeroPageX, opcode 55 (R247). -/
def execEorZpX (zp : Byte) (s : State) : Result := .next (doEor (.mem (.zeroPageX zp)) s)
/-- EOR Absolute, opcode 4D (R247). -/
def execEorAbs (addr : Word) (s : State) : Result := .next (doEor (.mem (.absolute addr)) s)
/-- EOR AbsoluteX, opcode 5D (R247). -/
def execEorAbsX (base : Word) (s : State) : Result := .next (doEor (.mem (.absoluteX base)) s)
/-- EOR AbsoluteY, opcode 59 (R247). -/
def execEorAbsY (base : Word) (s : State) : Result := .next (doEor (.mem (.absoluteY base)) s)
/-- EOR IndirectX, opcode 41 (R247). -/
def execEorIndX (zp : Byte) (s : State) : Result := .next (doEor (.mem (.indirectX zp)) s)
/-- EOR IndirectY, opcode 51 (R247). -/
def execEorIndY (zp : Byte) (s : State) : Result := .next (doEor (.mem (.indirectY zp)) s)

/-- CMP on any of its operands: no register is written (R251). -/
def doCmp (src : Source) (s : State) : State := s.setP (aluCompare s.a (readOperand src s) s.p)

/-- CMP Immediate, opcode C9 (R251). -/
def execCmpImm (v : Byte) (s : State) : Result := .next (doCmp (.immediate v) s)
/-- CMP ZeroPage, opcode C5 (R251). -/
def execCmpZp (zp : Byte) (s : State) : Result := .next (doCmp (.mem (.zeroPage zp)) s)
/-- CMP ZeroPageX, opcode D5 (R251). -/
def execCmpZpX (zp : Byte) (s : State) : Result := .next (doCmp (.mem (.zeroPageX zp)) s)
/-- CMP Absolute, opcode CD (R251). -/
def execCmpAbs (addr : Word) (s : State) : Result := .next (doCmp (.mem (.absolute addr)) s)
/-- CMP AbsoluteX, opcode DD (R251). -/
def execCmpAbsX (base : Word) (s : State) : Result := .next (doCmp (.mem (.absoluteX base)) s)
/-- CMP AbsoluteY, opcode D9 (R251). -/
def execCmpAbsY (base : Word) (s : State) : Result := .next (doCmp (.mem (.absoluteY base)) s)
/-- CMP IndirectX, opcode C1 (R251). -/
def execCmpIndX (zp : Byte) (s : State) : Result := .next (doCmp (.mem (.indirectX zp)) s)
/-- CMP IndirectY, opcode D1 (R251). -/
def execCmpIndY (zp : Byte) (s : State) : Result := .next (doCmp (.mem (.indirectY zp)) s)

/-- CPX on any of its operands: no register is written (R252). -/
def doCpx (src : Source) (s : State) : State := s.setP (aluCompare s.x (readOperand src s) s.p)

/-- CPX Immediate, opcode E0 (R252). -/
def execCpxImm (v : Byte) (s : State) : Result := .next (doCpx (.immediate v) s)
/-- CPX ZeroPage, opcode E4 (R252). -/
def execCpxZp (zp : Byte) (s : State) : Result := .next (doCpx (.mem (.zeroPage zp)) s)
/-- CPX Absolute, opcode EC (R252). -/
def execCpxAbs (addr : Word) (s : State) : Result := .next (doCpx (.mem (.absolute addr)) s)

/-- CPY on any of its operands: no register is written (R254). -/
def doCpy (src : Source) (s : State) : State := s.setP (aluCompare s.y (readOperand src s) s.p)

/-- CPY Immediate, opcode C0 (R254). -/
def execCpyImm (v : Byte) (s : State) : Result := .next (doCpy (.immediate v) s)
/-- CPY ZeroPage, opcode C4 (R254). -/
def execCpyZp (zp : Byte) (s : State) : Result := .next (doCpy (.mem (.zeroPage zp)) s)
/-- CPY Absolute, opcode CC (R254). -/
def execCpyAbs (addr : Word) (s : State) : Result := .next (doCpy (.mem (.absolute addr)) s)

/-- BIT on either of its operands (R255). -/
def doBit (src : Source) (s : State) : State := s.setP (aluBit s.a (readOperand src s) s.p)

/-- BIT ZeroPage, opcode 24 (R255). -/
def execBitZp (zp : Byte) (s : State) : Result := .next (doBit (.mem (.zeroPage zp)) s)
/-- BIT Absolute, opcode 2C (R255). -/
def execBitAbs (addr : Word) (s : State) : Result := .next (doBit (.mem (.absolute addr)) s)

/-- INC of a memory byte (R260). -/
def doInc (d : Dest) (s : State) : State :=
  let r := readOperand d.source s + 1
  (writeOperand d r s).setZN r

/-- INC ZeroPage, opcode E6 (R260). -/
def execIncZp (zp : Byte) (s : State) : Result := .next (doInc (.mem (.zeroPage zp)) s)
/-- INC ZeroPageX, opcode F6 (R260). -/
def execIncZpX (zp : Byte) (s : State) : Result := .next (doInc (.mem (.zeroPageX zp)) s)
/-- INC Absolute, opcode EE (R260). -/
def execIncAbs (addr : Word) (s : State) : Result := .next (doInc (.mem (.absolute addr)) s)
/-- INC AbsoluteX, opcode FE (R260). -/
def execIncAbsX (base : Word) (s : State) : Result := .next (doInc (.mem (.absoluteX base)) s)

/-- DEC of a memory byte (R261). -/
def doDec (d : Dest) (s : State) : State :=
  let r := readOperand d.source s - 1
  (writeOperand d r s).setZN r

/-- DEC ZeroPage, opcode C6 (R261). -/
def execDecZp (zp : Byte) (s : State) : Result := .next (doDec (.mem (.zeroPage zp)) s)
/-- DEC ZeroPageX, opcode D6 (R261). -/
def execDecZpX (zp : Byte) (s : State) : Result := .next (doDec (.mem (.zeroPageX zp)) s)
/-- DEC Absolute, opcode CE (R261). -/
def execDecAbs (addr : Word) (s : State) : Result := .next (doDec (.mem (.absolute addr)) s)
/-- DEC AbsoluteX, opcode DE (R261). -/
def execDecAbsX (base : Word) (s : State) : Result := .next (doDec (.mem (.absoluteX base)) s)

/-- INX, opcode E8 (R262). -/
def execInx (s : State) : Result := .next ((s.setX (s.x + 1)).setZN (s.x + 1))

/-- INY, opcode C8 (R263). -/
def execIny (s : State) : Result := .next ((s.setY (s.y + 1)).setZN (s.y + 1))

/-- DEX, opcode CA (R264). -/
def execDex (s : State) : Result := .next ((s.setX (s.x - 1)).setZN (s.x - 1))

/-- DEY, opcode 88 (R265). -/
def execDey (s : State) : Result := .next ((s.setY (s.y - 1)).setZN (s.y - 1))

end Sys2Proof.Machine
end

