-- ==== Sys2Proof/Machine/ControlFlow.lean ====
section
/-! DEFINITION. Jumps, calls, returns and branches (45_control.md). -/

namespace Sys2Proof.Machine

/-- JMP: the effective address is the target (R300). -/
def doJmp (m : MemOperand) (s : State) : State := s.setPc (ea m s)

/-- JMP Absolute, opcode 4C (R300). -/
def execJmpAbs (addr : Word) (s : State) : Result := .next (doJmp (.absolute addr) s)
/-- JMP Indirect, opcode 6C (R300). -/
def execJmpInd (ptr : Word) (s : State) : Result := .next (doJmp (.indirect ptr) s)

/-- JSR: the PC at call time is pushed, then PC is the target (R301). -/
def doJsr (m : MemOperand) (s : State) : State :=
  ((pushPc 0 s).andThen fun _ s1 => .done () (s1.setPc (ea m s1))).finish

/-- JSR Absolute, opcode 20 (R301). -/
def execJsrAbs (addr : Word) (s : State) : Result := .next (doJsr (.absolute addr) s)

/-- RTS, opcode 60 (R302). -/
def execRts (s : State) : Result := .next ((pullPc 0 s).finish)

/-- `Branch(cond)`: PC is the Relative effective address when the condition holds, else nothing (R305). -/
def branch (cond : Bool) (disp : Byte) (s : State) : State :=
  if cond then s.setPc (ea (.relative disp) s) else s

/-- BCC Relative, opcode 90 (R306). -/
def execBcc (disp : Byte) (s : State) : Result := .next (branch (!s.flag .c) disp s)

/-- BCS Relative, opcode B0 (R307). -/
def execBcs (disp : Byte) (s : State) : Result := .next (branch (s.flag .c) disp s)

/-- BEQ Relative, opcode F0 (R308). -/
def execBeq (disp : Byte) (s : State) : Result := .next (branch (s.flag .z) disp s)

/-- BNE Relative, opcode D0 (R309). -/
def execBne (disp : Byte) (s : State) : Result := .next (branch (!s.flag .z) disp s)

/-- BMI Relative, opcode 30 (R310). -/
def execBmi (disp : Byte) (s : State) : Result := .next (branch (s.flag .n) disp s)

/-- BPL Relative, opcode 10 (R311). -/
def execBpl (disp : Byte) (s : State) : Result := .next (branch (!s.flag .n) disp s)

/-- BVC Relative, opcode 50 (R312). -/
def execBvc (disp : Byte) (s : State) : Result := .next (branch (!s.flag .v) disp s)

/-- BVS Relative, opcode 70 (R313). -/
def execBvs (disp : Byte) (s : State) : Result := .next (branch (s.flag .v) disp s)

end Sys2Proof.Machine
end

