-- ==== Sys2Proof/Machine/LoadStore.lean ====
section
/-! DEFINITION. Loads, stores and transfers (41_load_store_transfer.md). -/

namespace Sys2Proof.Machine

/-- LDA on any of its operands (R170). -/
def doLda (src : Source) (s : State) : State :=
  let v := readOperand src s
  (s.setA v).setZN v

/-- LDA Immediate, opcode A9 (R170). -/
def execLdaImm (v : Byte) (s : State) : Result := .next (doLda (.immediate v) s)
/-- LDA ZeroPage, opcode A5 (R170). -/
def execLdaZp (zp : Byte) (s : State) : Result := .next (doLda (.mem (.zeroPage zp)) s)
/-- LDA ZeroPageX, opcode B5 (R170). -/
def execLdaZpX (zp : Byte) (s : State) : Result := .next (doLda (.mem (.zeroPageX zp)) s)
/-- LDA Absolute, opcode AD (R170). -/
def execLdaAbs (addr : Word) (s : State) : Result := .next (doLda (.mem (.absolute addr)) s)
/-- LDA AbsoluteX, opcode BD (R170). -/
def execLdaAbsX (base : Word) (s : State) : Result := .next (doLda (.mem (.absoluteX base)) s)
/-- LDA AbsoluteY, opcode B9 (R170). -/
def execLdaAbsY (base : Word) (s : State) : Result := .next (doLda (.mem (.absoluteY base)) s)
/-- LDA IndirectX, opcode A1 (R170). -/
def execLdaIndX (zp : Byte) (s : State) : Result := .next (doLda (.mem (.indirectX zp)) s)
/-- LDA IndirectY, opcode B1 (R170). -/
def execLdaIndY (zp : Byte) (s : State) : Result := .next (doLda (.mem (.indirectY zp)) s)

/-- LDX on any of its operands (R171). -/
def doLdx (src : Source) (s : State) : State :=
  let v := readOperand src s
  (s.setX v).setZN v

/-- LDX Immediate, opcode A2 (R171). -/
def execLdxImm (v : Byte) (s : State) : Result := .next (doLdx (.immediate v) s)
/-- LDX ZeroPage, opcode A6 (R171). -/
def execLdxZp (zp : Byte) (s : State) : Result := .next (doLdx (.mem (.zeroPage zp)) s)
/-- LDX ZeroPageY, opcode B6 (R171). -/
def execLdxZpY (zp : Byte) (s : State) : Result := .next (doLdx (.mem (.zeroPageY zp)) s)
/-- LDX Absolute, opcode AE (R171). -/
def execLdxAbs (addr : Word) (s : State) : Result := .next (doLdx (.mem (.absolute addr)) s)
/-- LDX AbsoluteY, opcode BE (R171). -/
def execLdxAbsY (base : Word) (s : State) : Result := .next (doLdx (.mem (.absoluteY base)) s)

/-- LDY on any of its operands (R172). -/
def doLdy (src : Source) (s : State) : State :=
  let v := readOperand src s
  (s.setY v).setZN v

/-- LDY Immediate, opcode A0 (R172). -/
def execLdyImm (v : Byte) (s : State) : Result := .next (doLdy (.immediate v) s)
/-- LDY ZeroPage, opcode A4 (R172). -/
def execLdyZp (zp : Byte) (s : State) : Result := .next (doLdy (.mem (.zeroPage zp)) s)
/-- LDY ZeroPageX, opcode B4 (R172). -/
def execLdyZpX (zp : Byte) (s : State) : Result := .next (doLdy (.mem (.zeroPageX zp)) s)
/-- LDY Absolute, opcode AC (R172). -/
def execLdyAbs (addr : Word) (s : State) : Result := .next (doLdy (.mem (.absolute addr)) s)
/-- LDY AbsoluteX, opcode BC (R172). -/
def execLdyAbsX (base : Word) (s : State) : Result := .next (doLdy (.mem (.absoluteX base)) s)

/-- STA to any of its operands: no flag is written (R175). -/
def doSta (m : MemOperand) (s : State) : State := writeOperand (.mem m) s.a s

/-- STA ZeroPage, opcode 85 (R175). -/
def execStaZp (zp : Byte) (s : State) : Result := .next (doSta (.zeroPage zp) s)
/-- STA ZeroPageX, opcode 95 (R175). -/
def execStaZpX (zp : Byte) (s : State) : Result := .next (doSta (.zeroPageX zp) s)
/-- STA Absolute, opcode 8D (R175). -/
def execStaAbs (addr : Word) (s : State) : Result := .next (doSta (.absolute addr) s)
/-- STA AbsoluteX, opcode 9D (R175). -/
def execStaAbsX (base : Word) (s : State) : Result := .next (doSta (.absoluteX base) s)
/-- STA AbsoluteY, opcode 99 (R175). -/
def execStaAbsY (base : Word) (s : State) : Result := .next (doSta (.absoluteY base) s)
/-- STA IndirectX, opcode 81 (R175). -/
def execStaIndX (zp : Byte) (s : State) : Result := .next (doSta (.indirectX zp) s)
/-- STA IndirectY, opcode 91 (R175). -/
def execStaIndY (zp : Byte) (s : State) : Result := .next (doSta (.indirectY zp) s)

/-- STX to any of its operands: no flag is written (R176). -/
def doStx (m : MemOperand) (s : State) : State := writeOperand (.mem m) s.x s

/-- STX ZeroPage, opcode 86 (R176). -/
def execStxZp (zp : Byte) (s : State) : Result := .next (doStx (.zeroPage zp) s)
/-- STX ZeroPageY, opcode 96 (R176). -/
def execStxZpY (zp : Byte) (s : State) : Result := .next (doStx (.zeroPageY zp) s)
/-- STX Absolute, opcode 8E (R176). -/
def execStxAbs (addr : Word) (s : State) : Result := .next (doStx (.absolute addr) s)

/-- STY to any of its operands: no flag is written (R177). -/
def doSty (m : MemOperand) (s : State) : State := writeOperand (.mem m) s.y s

/-- STY ZeroPage, opcode 84 (R177). -/
def execStyZp (zp : Byte) (s : State) : Result := .next (doSty (.zeroPage zp) s)
/-- STY ZeroPageX, opcode 94 (R177). -/
def execStyZpX (zp : Byte) (s : State) : Result := .next (doSty (.zeroPageX zp) s)
/-- STY Absolute, opcode 8C (R177). -/
def execStyAbs (addr : Word) (s : State) : Result := .next (doSty (.absolute addr) s)

/-- TAX, opcode AA (R180). -/
def execTax (s : State) : Result := .next ((s.setX s.a).setZN s.a)

/-- TAY, opcode A8 (R181). -/
def execTay (s : State) : Result := .next ((s.setY s.a).setZN s.a)

/-- TXA, opcode 8A (R182). -/
def execTxa (s : State) : Result := .next ((s.setA s.x).setZN s.x)

/-- TYA, opcode 98 (R183). -/
def execTya (s : State) : Result := .next ((s.setA s.y).setZN s.y)

/-- TSX, opcode BA (R184). -/
def execTsx (s : State) : Result := .next ((s.setX s.sp).setZN s.sp)

/-- TXS under either reading of its flags (R186). -/
def doTxsWith (setsZN : Bool) (s : State) : State :=
  if setsZN then (s.setSp s.x).setZN s.x else s.setSp s.x

/-- TXS, opcode 9A (R186). -/
def execTxs (s : State) : Result := .next (doTxsWith Config.txsSetsZN s)

end Sys2Proof.Machine
end

