-- ==== Sys2Proof/Machine/Shift.lean ====
section
/-! DEFINITION. Shifts and rotates, in Accumulator and memory modes (44_shift_rotate.md). -/

namespace Sys2Proof.Machine

/-- A shift or rotate: read, shift, write back to the same operand (R285 to R288; 40_addressing.md R160). -/
def shiftOperand (shift : Byte → Byte → AluOut) (d : Dest) (s : State) : State :=
  let out := shift (readOperand d.source s) s.p
  writeOperand d out.result (s.setP out.p)

/-- ASL Accumulator, opcode 0A (R285). -/
def execAslAcc (s : State) : Result := .next (shiftOperand aluShl .accumulator s)
/-- ASL ZeroPage, opcode 06 (R285). -/
def execAslZp (zp : Byte) (s : State) : Result := .next (shiftOperand aluShl (.mem (.zeroPage zp)) s)
/-- ASL ZeroPageX, opcode 16 (R285). -/
def execAslZpX (zp : Byte) (s : State) : Result := .next (shiftOperand aluShl (.mem (.zeroPageX zp)) s)
/-- ASL Absolute, opcode 0E (R285). -/
def execAslAbs (addr : Word) (s : State) : Result := .next (shiftOperand aluShl (.mem (.absolute addr)) s)
/-- ASL AbsoluteX, opcode 1E (R285). -/
def execAslAbsX (base : Word) (s : State) : Result := .next (shiftOperand aluShl (.mem (.absoluteX base)) s)

/-- LSR Accumulator, opcode 4A (R286). -/
def execLsrAcc (s : State) : Result := .next (shiftOperand aluShr .accumulator s)
/-- LSR ZeroPage, opcode 46 (R286). -/
def execLsrZp (zp : Byte) (s : State) : Result := .next (shiftOperand aluShr (.mem (.zeroPage zp)) s)
/-- LSR ZeroPageX, opcode 56 (R286). -/
def execLsrZpX (zp : Byte) (s : State) : Result := .next (shiftOperand aluShr (.mem (.zeroPageX zp)) s)
/-- LSR Absolute, opcode 4E (R286). -/
def execLsrAbs (addr : Word) (s : State) : Result := .next (shiftOperand aluShr (.mem (.absolute addr)) s)
/-- LSR AbsoluteX, opcode 5E (R286). -/
def execLsrAbsX (base : Word) (s : State) : Result := .next (shiftOperand aluShr (.mem (.absoluteX base)) s)

/-- ROL Accumulator, opcode 2A (R287). -/
def execRolAcc (s : State) : Result := .next (shiftOperand aluRol .accumulator s)
/-- ROL ZeroPage, opcode 26 (R287). -/
def execRolZp (zp : Byte) (s : State) : Result := .next (shiftOperand aluRol (.mem (.zeroPage zp)) s)
/-- ROL ZeroPageX, opcode 36 (R287). -/
def execRolZpX (zp : Byte) (s : State) : Result := .next (shiftOperand aluRol (.mem (.zeroPageX zp)) s)
/-- ROL Absolute, opcode 2E (R287). -/
def execRolAbs (addr : Word) (s : State) : Result := .next (shiftOperand aluRol (.mem (.absolute addr)) s)
/-- ROL AbsoluteX, opcode 3E (R287). -/
def execRolAbsX (base : Word) (s : State) : Result := .next (shiftOperand aluRol (.mem (.absoluteX base)) s)

/-- ROR Accumulator, opcode 6A (R288). -/
def execRorAcc (s : State) : Result := .next (shiftOperand aluRor .accumulator s)
/-- ROR ZeroPage, opcode 66 (R288). -/
def execRorZp (zp : Byte) (s : State) : Result := .next (shiftOperand aluRor (.mem (.zeroPage zp)) s)
/-- ROR ZeroPageX, opcode 76 (R288). -/
def execRorZpX (zp : Byte) (s : State) : Result := .next (shiftOperand aluRor (.mem (.zeroPageX zp)) s)
/-- ROR Absolute, opcode 6E (R288). -/
def execRorAbs (addr : Word) (s : State) : Result := .next (shiftOperand aluRor (.mem (.absolute addr)) s)
/-- ROR AbsoluteX, opcode 7E (R288). -/
def execRorAbsX (base : Word) (s : State) : Result := .next (shiftOperand aluRor (.mem (.absoluteX base)) s)

end Sys2Proof.Machine
end

