-- ==== Sys2Proof/Machine/Stack.lean ====
section
/-! DEFINITION. The stack instructions (42_stack.md). -/

namespace Sys2Proof.Machine

/-- PHA, opcode 48 (R210). -/
def execPha (s : State) : Result := .next ((push s.a s).finish)

/-- PHP, opcode 08 (R211). -/
def execPhp (s : State) : Result := .next ((pushFlags s).finish)

/-- PLA: the pulled byte goes to A and sets Z and N (R212). -/
def doPla (s : State) : State :=
  ((pull s).andThen fun v s1 => .done () ((s1.setA v).setZN v)).finish

/-- PLA, opcode 68 (R212). -/
def execPla (s : State) : Result := .next (doPla s)

/-- PLP, opcode 28 (R213). -/
def execPlp (s : State) : Result := .next ((pullFlags s).finish)

end Sys2Proof.Machine
end

