-- ==== Sys2Proof/Machine/System.lean ====
section
/-! DEFINITION. System and flag instructions (46_system_flags.md). -/

namespace Sys2Proof.Machine

/-- BRK: the trap when I = 0; with I = 1 nothing beyond the PC advance of decode (R330). -/
def doBrk (s : State) : State := if s.flag .i then s else takeTrap s

/-- BRK, opcode 00 (R330). -/
def execBrk (s : State) : Result := .next (doBrk s)

/-- RTI, opcode 40 (R331). -/
def execRti (s : State) : Result := .next (returnFromTrap s)

/-- NOP, opcode EA (R332). -/
def execNop (s : State) : Result := .next (s)

/-- CLC, opcode 18 (R335). -/
def execClc (s : State) : Result := .next (s.setFlag .c false)

/-- CLD, opcode D8 (R336). -/
def execCld (s : State) : Result := .next (s.setFlag .d false)

/-- CLI, opcode 58 (R337). -/
def execCli (s : State) : Result := .next (s.setFlag .i false)

/-- CLV, opcode B8 (R338). -/
def execClv (s : State) : Result := .next (s.setFlag .v false)

/-- SEC, opcode 38 (R339). -/
def execSec (s : State) : Result := .next (s.setFlag .c true)

/-- SED, opcode F8 (R340). -/
def execSed (s : State) : Result := .next (s.setFlag .d true)

/-- SEI, opcode 78 (R341). -/
def execSei (s : State) : Result := .next (s.setFlag .i true)

end Sys2Proof.Machine
end

