-- ==== Sys2Proof/Machine/Step.lean ====
section
/-! DEFINITION. One step: one instruction (60_exceptions.md R381), as the run loop takes it (R380, R386). -/

namespace Sys2Proof.Machine

/-- `Step()` (60_exceptions.md R381): decode, then execute; an unknown opcode raises its fault and nothing executes. -/
def stepInstr (s : State) : Host.Outcome State Fault Refusal :=
  match fetchDecode s with
  | .instr i s1 => exec i s1
  | .unknownOpcode b s1 => .next (raiseFault (.unknownOpcode b) s1)

/-- One step of the machine (60_exceptions.md R380): a Faulted engine answers its fault and executes nothing (R386);
any other engine is taken to Running and executes one instruction. A step taken from Idle is the host's call of `run`,
one taken from Suspended is `should_break` answering false or a further call of `run` (notes/assumptions/2.md). -/
def step (s : State) : Host.Outcome State Fault Refusal :=
  match s.engine with
  | .faulted f => .fault f
  | .idle | .running | .suspended => stepInstr s.resume

/-- The state with an instruction of `nbits` bits `w` stored where the step fetches its next one: at PC, and, up to the
longest instruction's three bytes, after it (the bits above `nbits` are 0). -/
def State.withFetchWord (s : State) (nbits w : Nat) : State :=
  ((s.write s.pc (BitVec.ofNat 8 (w % 2 ^ nbits))).write (s.pc + 1) (BitVec.ofNat 8 (w % 2 ^ nbits / 256))).write
    (s.pc + 2) (BitVec.ofNat 8 (w % 2 ^ nbits / 65536))

end Sys2Proof.Machine
end

