-- ==== Sys2Proof/Machine/Render.lean ====
section
/-! DEFINITION. The disassembly rendering of 30_encoding.md R130, for reading only: no behaviour depends on it. Text
is a list of characters. -/

namespace Sys2Proof

/-- The name of a mnemonic, in capitals (30_encoding.md R130). -/
def Mnemonic.name : Mnemonic → List Char
  | .lda => ['L', 'D', 'A']
  | .ldx => ['L', 'D', 'X']
  | .ldy => ['L', 'D', 'Y']
  | .sta => ['S', 'T', 'A']
  | .stx => ['S', 'T', 'X']
  | .sty => ['S', 'T', 'Y']
  | .tax => ['T', 'A', 'X']
  | .tay => ['T', 'A', 'Y']
  | .txa => ['T', 'X', 'A']
  | .tya => ['T', 'Y', 'A']
  | .tsx => ['T', 'S', 'X']
  | .txs => ['T', 'X', 'S']
  | .pha => ['P', 'H', 'A']
  | .php => ['P', 'H', 'P']
  | .pla => ['P', 'L', 'A']
  | .plp => ['P', 'L', 'P']
  | .adc => ['A', 'D', 'C']
  | .sbc => ['S', 'B', 'C']
  | .and => ['A', 'N', 'D']
  | .ora => ['O', 'R', 'A']
  | .eor => ['E', 'O', 'R']
  | .cmp => ['C', 'M', 'P']
  | .cpx => ['C', 'P', 'X']
  | .cpy => ['C', 'P', 'Y']
  | .bit => ['B', 'I', 'T']
  | .inc => ['I', 'N', 'C']
  | .dec => ['D', 'E', 'C']
  | .inx => ['I', 'N', 'X']
  | .iny => ['I', 'N', 'Y']
  | .dex => ['D', 'E', 'X']
  | .dey => ['D', 'E', 'Y']
  | .asl => ['A', 'S', 'L']
  | .lsr => ['L', 'S', 'R']
  | .rol => ['R', 'O', 'L']
  | .ror => ['R', 'O', 'R']
  | .jmp => ['J', 'M', 'P']
  | .jsr => ['J', 'S', 'R']
  | .rts => ['R', 'T', 'S']
  | .bcc => ['B', 'C', 'C']
  | .bcs => ['B', 'C', 'S']
  | .beq => ['B', 'E', 'Q']
  | .bne => ['B', 'N', 'E']
  | .bmi => ['B', 'M', 'I']
  | .bpl => ['B', 'P', 'L']
  | .bvc => ['B', 'V', 'C']
  | .bvs => ['B', 'V', 'S']
  | .brk => ['B', 'R', 'K']
  | .rti => ['R', 'T', 'I']
  | .nop => ['N', 'O', 'P']
  | .clc => ['C', 'L', 'C']
  | .cld => ['C', 'L', 'D']
  | .cli => ['C', 'L', 'I']
  | .clv => ['C', 'L', 'V']
  | .sec => ['S', 'E', 'C']
  | .sed => ['S', 'E', 'D']
  | .sei => ['S', 'E', 'I']

/-- A hex digit, in capitals (30_encoding.md R130). -/
def hexDigit (n : Nat) : Char := if n < 10 then Char.ofNat (48 + n) else Char.ofNat (55 + n)

/-- A byte as `$xx`. -/
def hexByte (b : Byte) : List Char := ['$', hexDigit (b.toNat / 16), hexDigit (b.toNat % 16)]

/-- A word as `$xxxx`. -/
def hexWord (w : Word) : List Char :=
  ['$', hexDigit (w.toNat / 4096), hexDigit (w.toNat / 256 % 16), hexDigit (w.toNat / 16 % 16), hexDigit (w.toNat % 16)]

/-- The operand's text (30_encoding.md R130). -/
def Operand.render : Operand → List Char
  | .implicit | .accumulator => []
  | .immediate v => [' ', '#'] ++ hexByte v
  | .mem (.zeroPage zp) => ' ' :: hexByte zp
  | .mem (.relative disp) => ' ' :: hexByte disp
  | .mem (.zeroPageX zp) => ' ' :: hexByte zp ++ [',', 'X']
  | .mem (.zeroPageY zp) => ' ' :: hexByte zp ++ [',', 'Y']
  | .mem (.absolute addr) => ' ' :: hexWord addr
  | .mem (.absoluteX base) => ' ' :: hexWord base ++ [',', 'X']
  | .mem (.absoluteY base) => ' ' :: hexWord base ++ [',', 'Y']
  | .mem (.indirect ptr) => [' ', '('] ++ hexWord ptr ++ [')']
  | .mem (.indirectX zp) => [' ', '('] ++ hexByte zp ++ [',', 'X', ')']
  | .mem (.indirectY zp) => [' ', '('] ++ hexByte zp ++ [')', ',', 'Y']

/-- The text of an instruction (30_encoding.md R130). -/
def Instr.render (i : Instr) : List Char := i.mnemonic.name ++ i.operand.render

end Sys2Proof
end

