-- ==== Sys2Proof/Machine/ControlPort.lean ====
section
/-! DEFINITION. The control port, the host's side of the core (00_scope.md R7): load image, initial register
configuration, start, PC injection, accessors, single step, run and status. Each operation says in which engine states
it is allowed; elsewhere it is refused, and while the engine is Running every one is (20_memory.md R89). -/

namespace Sys2Proof.Machine

/-- Why a host operation does nothing. Not a fault of the core (60_exceptions.md R360). -/
inductive HostError where
  /-- The image has more than 65536 bytes (70_reset_and_hazards.md R401). -/
  | imageTooLarge
  /-- A configuration key outside pc, sp, a, x, y, flags (R402). -/
  | invalidRegisterKey
  /-- A configuration value that is not an unsigned integer, or, under `reject`, too large (R402). -/
  | invalidRegisterValue
  /-- The operation is not allowed in this engine state (20_memory.md R89; 60_exceptions.md R384;
  70_reset_and_hazards.md R404, R405). -/
  | refusedIn (e : EngineState)
  /-- The step was refused for want of a meaning; no instruction of this model is. -/
  | refused (r : Refusal)
  deriving DecidableEq, Repr

/-- A register as a number of 16 bits. -/
def State.reg (s : State) (k : RegKey) : Word :=
  match k with
  | .pc => s.pc
  | .sp => zext16 s.sp
  | .a => zext16 s.a
  | .x => zext16 s.x
  | .y => zext16 s.y
  | .flags => zext16 s.p

/-- A register written with a number's low 16 bits (PC) or low 8 bits (the others); `flags` writes all eight bits of P.
For a configuration pair 70_reset_and_hazards.md R402 says so; for an accessor write it is the model's choice
(notes/assumptions/21.md). -/
def State.setReg (s : State) (k : RegKey) (v : Nat) : State :=
  match k with
  | .pc => s.setPc (BitVec.ofNat 16 v)
  | .sp => s.setSp (BitVec.ofNat 8 v)
  | .a => s.setA (BitVec.ofNat 8 v)
  | .x => s.setX (BitVec.ofNat 8 v)
  | .y => s.setY (BitVec.ofNat 8 v)
  | .flags => s.setP (BitVec.ofNat 8 v)

/-- The host may read state in every engine state but Running (20_memory.md R89; 60_exceptions.md R384). -/
def EngineState.hostReads : EngineState → Bool
  | .idle | .suspended | .faulted _ => true
  | .running => false

/-- The host may write state, inject a PC and step while the engine is Idle or Suspended (60_exceptions.md R384, R387;
70_reset_and_hazards.md R405). -/
def EngineState.hostWrites : EngineState → Bool
  | .idle | .suspended => true
  | .running | .faulted _ => false

/-- `status`: the engine state and, after a fault, the fault kind and its value (00_scope.md R7). While the engine is
Running the host has no move (20_memory.md R89), so it is refused (notes/assumptions/23.md). -/
def State.status (s : State) : Except HostError EngineState :=
  if s.engine.hostReads then .ok s.engine else .error (.refusedIn s.engine)

/-- The accessor that reads a register (60_exceptions.md R384). -/
def hostReadReg (k : RegKey) (s : State) : Except HostError Word :=
  if s.engine.hostReads then .ok (s.reg k) else .error (.refusedIn s.engine)

/-- The accessor that reads a memory byte (60_exceptions.md R384). -/
def hostReadMem (addr : Word) (s : State) : Except HostError Byte :=
  if s.engine.hostReads then .ok (s.read addr) else .error (.refusedIn s.engine)

/-- The accessor that writes a register (60_exceptions.md R384). DESIGN CHOICE: a value wider than the register keeps
its low 16 bits (PC) or low 8 bits (the others), under either REGCFG_OVERFLOW; R384 says nothing of such a value
(notes/assumptions/21.md). -/
def hostWriteReg (k : RegKey) (v : Nat) (s : State) : Except HostError State :=
  if s.engine.hostWrites then .ok (s.setReg k v) else .error (.refusedIn s.engine)

/-- The accessor that writes a memory byte (60_exceptions.md R384). -/
def hostWriteMem (addr : Word) (v : Byte) (s : State) : Except HostError State :=
  if s.engine.hostWrites then .ok (s.write addr v) else .error (.refusedIn s.engine)

/-- Bytes stored one after another from an address up (70_reset_and_hazards.md R401). -/
def storeBytes : Nat → List Byte → Memory → Memory
  | _, [], m => m
  | base, v :: rest, m => storeBytes (base + 1) rest (m.write (BitVec.ofNat 16 base) v)

/-- `LoadImage(img)`: the image from address 0x0000 upward, every other byte as it was (70_reset_and_hazards.md R401).
It happens before the run, while the engine is Idle (R400; notes/assumptions/14.md). -/
def loadImage (img : List Byte) (s : State) : Except HostError State :=
  if s.engine ≠ .idle then .error (.refusedIn s.engine)
  else if img.length > 65536 then .error .imageTooLarge
  else .ok (s.setMem (storeBytes 0 img s.mem))

/-- The key of a configuration pair (70_reset_and_hazards.md R402). -/
def parseKey : List Char → Option RegKey
  | ['p', 'c'] => some .pc
  | ['s', 'p'] => some .sp
  | ['a'] => some .a
  | ['x'] => some .x
  | ['y'] => some .y
  | ['f', 'l', 'a', 'g', 's'] => some .flags
  | _ => none

/-- Decimal digits read on from a number. -/
def parseDigits : Nat → List Char → Option Nat
  | acc, [] => some acc
  | acc, ch :: rest =>
    if '0'.toNat ≤ ch.toNat ∧ ch.toNat ≤ '9'.toNat then parseDigits (acc * 10 + (ch.toNat - '0'.toNat)) rest else none

/-- The value of a configuration pair: an unsigned integer in decimal digits (70_reset_and_hazards.md R402;
notes/assumptions/15.md). -/
def parseUnsigned : List Char → Option Nat
  | [] => none
  | ch :: rest => parseDigits 0 (ch :: rest)

/-- One more than the largest value of a register's field (70_reset_and_hazards.md R402). -/
def RegKey.limit : RegKey → Nat
  | .pc => 65536
  | .sp | .a | .x | .y | .flags => 256

/-- A configuration pair checked under either reading of an over-wide value (70_reset_and_hazards.md R402). -/
def checkPairWith (rule : RegcfgOverflow) (pair : List Char × List Char) : Except HostError (RegKey × Nat) :=
  match parseKey pair.1 with
  | none => .error .invalidRegisterKey
  | some k =>
    match parseUnsigned pair.2 with
    | none => .error .invalidRegisterValue
    | some v =>
      match rule with
      | .truncate => .ok (k, v)
      | .reject => if v < k.limit then .ok (k, v) else .error .invalidRegisterValue

/-- All pairs checked, the first error in list order winning (notes/assumptions/15.md). -/
def checkPairsWith (rule : RegcfgOverflow) : List (List Char × List Char) → Except HostError (List (RegKey × Nat))
  | [] => .ok []
  | pair :: rest =>
    match checkPairWith rule pair with
    | .error e => .error e
    | .ok kv =>
      match checkPairsWith rule rest with
      | .error e => .error e
      | .ok kvs => .ok (kv :: kvs)

/-- Checked pairs applied in order, so that the later of two pairs with one key wins (70_reset_and_hazards.md R402). -/
def applyPairs (kvs : List (RegKey × Nat)) (s : State) : State := kvs.foldl (fun t kv => t.setReg kv.1 kv.2) s

/-- The initial register configuration: all pairs or, on any error, none (70_reset_and_hazards.md R402); while the
engine is Idle (R400; notes/assumptions/14.md). -/
def configureWith (rule : RegcfgOverflow) (pairs : List (List Char × List Char)) (s : State) : Except HostError State :=
  if s.engine ≠ .idle then .error (.refusedIn s.engine)
  else
    match checkPairsWith rule pairs with
    | .error e => .error e
    | .ok kvs => .ok (applyPairs kvs s)

/-- The initial register configuration (70_reset_and_hazards.md R402). -/
def configure (pairs : List (List Char × List Char)) (s : State) : Except HostError State :=
  configureWith Config.regcfgOverflow pairs s

/-- `start`, the reset entry: PC from the reset vector, nothing else changes; only while Idle
(70_reset_and_hazards.md R404). -/
def start (s : State) : Except HostError State :=
  if s.engine = .idle then .ok (s.setPc (s.read16 Config.resetVector)) else .error (.refusedIn s.engine)

/-- PC injection, while Idle or Suspended (70_reset_and_hazards.md R405). -/
def injectPc (pc : Word) (s : State) : Except HostError State :=
  if s.engine.hostWrites then .ok (s.setPc pc) else .error (.refusedIn s.engine)

/-- The engine as a single step hands it back to the host: Suspended, or Faulted if the step faulted
(60_exceptions.md R387). -/
def State.handBack (s : State) : State :=
  match s.engine with
  | .faulted _ => s
  | .idle | .running | .suspended => s.setEngine .suspended

/-- The host's single step, from Idle or Suspended (60_exceptions.md R387). -/
def hostStep (s : State) : Except HostError State :=
  if s.engine.hostWrites then
    match stepInstr s.resume with
    | .next t => .ok t.handBack
    | .fault f => .error (.refusedIn (.faulted f))
    | .refused r => .error (.refused r)
  else .error (.refusedIn s.engine)

/-- What the loop of `run` has come to within a number of instructions (60_exceptions.md R380). -/
inductive RunResult where
  /-- `run` returned Suspended. -/
  | suspended (s : State)
  /-- `run` returned the fault. -/
  | faulted (f : Fault) (s : State)
  /-- `run` has not returned yet. -/
  | unfinished (s : State)
  /-- An instruction had no meaning; none of this model's is. -/
  | refused (r : Refusal)
  deriving DecidableEq, Repr

/-- The loop of `run(should_break)`, for at most so many instructions (60_exceptions.md R380). It is the engine's own:
after an instruction that neither suspends nor faults it goes on from Running. The bound is the model's
(notes/assumptions/20.md). -/
def runLoop (shouldBreak : Registers → Memory → Bool) : Nat → State → RunResult
  | 0, s =>
    match s.engine with
    | .faulted f => .faulted f s
    | .idle | .running | .suspended => .unfinished s
  | k + 1, s =>
    match step s with
    | .fault f => .faulted f s
    | .refused r => .refused r
    | .next t =>
      match t.engine with
      | .faulted f => .faulted f t
      | .suspended => if shouldBreak t.registers t.mem then .suspended t else runLoop shouldBreak k t
      | .idle | .running => runLoop shouldBreak k t

/-- The host's call `run(should_break)` (60_exceptions.md R380): on a Faulted engine it returns the fault at once (R386),
and a run that never returns is `unfinished` for every number (R385). While the engine is Running the host has no move
(20_memory.md R89), so the call is refused (notes/assumptions/22.md). -/
def run (shouldBreak : Registers → Memory → Bool) (k : Nat) (s : State) : Except HostError RunResult :=
  if s.engine = .running then .error (.refusedIn s.engine) else .ok (runLoop shouldBreak k s)

/-- `run_until_break`: `should_break` is always true (60_exceptions.md R382). -/
def runUntilBreak (k : Nat) (s : State) : Except HostError RunResult := run (fun _ _ => true) k s

/-- A run that never returns (60_exceptions.md R385; 93_implementation_defined.md U9). -/
def RunsForever (shouldBreak : Registers → Memory → Bool) (s : State) : Prop :=
  ∀ k, ∃ t, run shouldBreak k s = .ok (.unfinished t)

end Sys2Proof.Machine
end

