-- ==== Sys2Proof/Safety.lean ====
section
/-! DEFINITION. What counts as a safe state, step and run, and the invariant of the state, in the terms the claims use. -/

namespace Sys2Proof.Machine

/-- What holds of every state the machine reaches: memory is in its canonical form (20_memory.md R70, R71). -/
def State.Inv (s : State) : Prop := s.mem.wf = true

/-- The engine is not Faulted (10_state.md R50). -/
def State.alive (s : State) : Bool :=
  match s.engine with
  | .faulted _ => false
  | .idle | .running | .suspended => true

/-- The step goes on: it answers a next state in which no fault was raised (60_exceptions.md R361). -/
def SafeStep (s : State) : Prop := ∃ t, step s = .next t ∧ t.alive = true

/-- A run of so many steps in which no fault is raised. -/
def SafeRun : Nat → State → Prop
  | 0, s => s.alive = true
  | k + 1, s => ∃ t, step s = .next t ∧ t.alive = true ∧ SafeRun k t

end Sys2Proof.Machine
end

