-- ==== Sys2Proof/Certificates/Slice0/Obligations.lean ====
section
/-! DEFINITION. The statements for the provers, from the spec's numbered rules. A statement marked 'derived' in
OBLIGATIONS.json rests on a decision the spec marks as its own (D<n>, or a rule marked derived) or on an entry of
notes/assumptions; its docstring names it. -/

open Sys2Proof Sys2Proof.Machine

namespace Sys2Proof.Claims

/-- `MemRead` of every address gives what it gave before. -/
def MemSame (s t : State) : Prop := ∀ a, t.read a = s.read a

/-- `MemRead` of every address outside a list gives what it gave before. -/
def MemSameOutside (addrs : List Word) (s t : State) : Prop := ∀ a, a ∉ addrs → t.read a = s.read a

/-- The registers outside a list are unchanged, the bits of P outside a list are unchanged, and so is the engine. -/
structure Frame (regs : List RegKey) (flags : List Flag) (s t : State) : Prop where
  regs : ∀ r, r ∉ regs → r ≠ .flags → t.reg r = s.reg r
  flags : ∀ f, f ∉ flags → t.flag f = s.flag f
  engine : t.engine = s.engine

/-- Z and N follow a byte: Z exactly when it is 0, N exactly when its bit 7 is set (43_arith_logic.md R230). -/
def ZNFollow (v : Byte) (t : State) : Prop := (t.flag .z = decide (v = 0)) ∧ (t.flag .n = decide (128 ≤ v.toNat))

/-- The mnemonic's operands and encoding, as its rule lists them. -/
def HasForms (m : Mnemonic) (forms : List (Mode × Byte)) : Prop :=
  ∀ md b, lookupByMode m md = .ok b ↔ (md, b) ∈ forms

/-- A load of one register from any of the mnemonic's operands. -/
def IsLoad (m : Mnemonic) (key : RegKey) (get : State → Byte) : Prop :=
  ∀ (i : Instr) (s : State), i.mnemonic = m → ∃ src t, i.operand.source? = some src ∧ exec i s = .next t ∧
    get t = readOperand src s ∧ ZNFollow (readOperand src s) t ∧ Frame [key] [.z, .n] s t ∧ MemSame s t

/-- A store of one register to any of the mnemonic's operands: the byte at the effective address, and nothing else. -/
def IsStore (m : Mnemonic) (get : State → Byte) : Prop :=
  ∀ (i : Instr) (s : State), i.mnemonic = m → ∃ d t, i.operand.mem? = some d ∧ exec i s = .next t ∧
    (s.Inv → t.read (ea d s) = get s) ∧ Frame [] [] s t ∧ MemSameOutside [ea d s] s t

/-- A transfer from one register to another. -/
def IsTransfer (i : Instr) (src dst : State → Byte) (key : RegKey) : Prop :=
  ∀ s, ∃ t, exec i s = .next t ∧ dst t = src s ∧ ZNFollow (src s) t ∧ Frame [key] [.z, .n] s t ∧ MemSame s t

/-- A logical instruction: A with the operand, into A. -/
def IsLogical (m : Mnemonic) (op : Byte → Byte → Byte) : Prop :=
  ∀ (i : Instr) (s : State), i.mnemonic = m → ∃ src t, i.operand.source? = some src ∧ exec i s = .next t ∧
    t.a = op s.a (readOperand src s) ∧ ZNFollow t.a t ∧ Frame [.a] [.z, .n] s t ∧ MemSame s t

/-- A compare of one register with the operand: no register is written. -/
def IsCompare (m : Mnemonic) (get : State → Byte) : Prop :=
  ∀ (i : Instr) (s : State), i.mnemonic = m → ∃ src t, i.operand.source? = some src ∧ exec i s = .next t ∧
    t.flag .c = decide ((readOperand src s).toNat ≤ (get s).toNat) ∧ ZNFollow (get s - readOperand src s) t ∧
    Frame [] [.c, .z, .n] s t ∧ MemSame s t

/-- An increment or decrement of a memory byte: read and write at one effective address. -/
def IsMemoryStep (m : Mnemonic) (op : Nat → Nat) : Prop :=
  ∀ (i : Instr) (s : State), i.mnemonic = m → ∃ d t r, i.operand.mem? = some d ∧ exec i s = .next t ∧
    r = BitVec.ofNat 8 (op (s.read (ea d s)).toNat % 256) ∧ ZNFollow r t ∧ (s.Inv → t.read (ea d s) = r) ∧
    Frame [] [.z, .n] s t ∧ MemSameOutside [ea d s] s t

/-- An increment or decrement of a register. -/
def IsRegisterStep (i : Instr) (get : State → Byte) (key : RegKey) (op : Nat → Nat) : Prop :=
  ∀ s, ∃ t, exec i s = .next t ∧ (get t).toNat = op (get s).toNat % 256 ∧ ZNFollow (get t) t ∧
    Frame [key] [.z, .n] s t ∧ MemSame s t

/-- A shift or rotate on any of the mnemonic's operands: the byte `v` becomes `res v c` and C becomes `out v`, where
`c` is the carry before. In Accumulator mode A is the operand and no memory changes. -/
def IsShift (m : Mnemonic) (res : Nat → Nat → Nat) (out : Nat → Bool) : Prop :=
  ∀ (i : Instr) (s : State), i.mnemonic = m → ∃ d t r, i.operand.dest? = some d ∧ exec i s = .next t ∧
    r = BitVec.ofNat 8 (res (readOperand d.source s).toNat (s.flag .c).toNat) ∧
    t.flag .c = out (readOperand d.source s).toNat ∧ ZNFollow r t ∧
    (d = .accumulator → t.a = r ∧ Frame [.a] [.c, .z, .n] s t ∧ MemSame s t) ∧
    (∀ o, d = .mem o → (s.Inv → t.read (ea o s) = r) ∧ Frame [] [.c, .z, .n] s t ∧ MemSameOutside [ea o s] s t)

/-- A conditional branch on one bit of P. -/
def IsBranch (m : Mnemonic) (f : Flag) (when : Bool) : Prop :=
  ∀ (i : Instr) (s : State), i.mnemonic = m → ∃ disp t, i.operand = .mem (.relative disp) ∧ exec i s = .next t ∧
    (s.flag f = when → t.pc = ea (.relative disp) s) ∧ (s.flag f ≠ when → t.pc = s.pc) ∧
    Frame [.pc] [] s t ∧ MemSame s t

/-- An instruction that writes one bit of P and nothing else. -/
def IsFlagWrite (i : Instr) (f : Flag) (v : Bool) : Prop :=
  ∀ s, ∃ t, exec i s = .next t ∧ t.flag f = v ∧ Frame [] [f] s t ∧ MemSame s t

/-- The faults a stack instruction can raise leave the engine Faulted and every register and byte as they were. -/
def FaultsUntouched (i : Instr) (f : Fault) (s : State) : Prop :=
  ∃ t, exec i s = .next t ∧ t.engine = .faulted f ∧ t.registers = s.registers ∧ MemSame s t

/-- From two states that differ only in D the instruction answers next states whose registers differ only in D, whose
engines agree, and whose memories agree but for bit D of one byte. -/
def OnlyCopiesD (i : Instr) (slot : Word) (v : Bool) (s : State) : Prop :=
  ∃ t u, exec i s = .next t ∧ exec i (s.setFlag .d v) = .next u ∧ u.registers = (t.setFlag .d v).registers ∧
    u.engine = t.engine ∧ MemSameOutside [slot] t u ∧ ∀ f, f ≠ .d → testFlag f (u.read slot) = testFlag f (t.read slot)

end Sys2Proof.Claims

open Sys2Proof.Claims

/-- One byte string per family, written from the opcode map (R112) and the formats (R100), with a byte 0x77 after
it, decodes to the instruction the map gives and leaves the 0x77; 0x02 and 0xFF decode to nothing. -/
def Obligations.HandWrittenWordsDecode : Prop :=
  decode [0xA9, 0x05, 0x77] = .ok (.ldaImm 0x05, [0x77]) ∧ decode [0xB6, 0xF0, 0x77] = .ok (.ldxZpY 0xF0, [0x77]) ∧
  decode [0x8D, 0x00, 0x02, 0x77] = .ok (.staAbs 0x0200, [0x77]) ∧ decode [0x48, 0x77] = .ok (.pha, [0x77]) ∧
  decode [0x71, 0x40, 0x77] = .ok (.adcIndY 0x40, [0x77]) ∧ decode [0xC1, 0x20, 0x77] = .ok (.cmpIndX 0x20, [0x77]) ∧
  decode [0x0A, 0x77] = .ok (.aslAcc, [0x77]) ∧ decode [0x7E, 0xFF, 0x10, 0x77] = .ok (.rorAbsX 0x10FF, [0x77]) ∧
  decode [0x6C, 0xFF, 0x10, 0x77] = .ok (.jmpInd 0x10FF, [0x77]) ∧
  decode [0x20, 0x05, 0x00, 0x77] = .ok (.jsrAbs 0x0005, [0x77]) ∧ decode [0xD0, 0xFB, 0x77] = .ok (.bne 0xFB, [0x77]) ∧
  decode [0x00, 0x77] = .ok (.brk, [0x77]) ∧ decode [0xB8, 0x77] = .ok (.clv, [0x77]) ∧
  decode [0x02, 0x77] = .error (.unknownOpcode 0x02) ∧ decode [0xFF, 0x77] = .error (.unknownOpcode 0xFF)

/-- For every instruction i (every constructor, every operand value) and every rest of a buffer: decode of encode i
followed by rest is i with that rest, and the record-level encoder (lookup_by_mode, then low byte, then high byte)
gives the same bytes. R124, which the spec marks derived. -/
def Obligations.DecodeOfEncodeIsTheInstruction : Prop :=
  ∀ (i : Instr) (rest : List Byte), decode (encode i ++ rest) = .ok (i, rest) ∧ encodeRecord i.record = .ok (encode i)

/-- For every buffer that decodes to an instruction i with a rest, the buffer is encode i followed by that rest.
From R100, R104 and R110. -/
def Obligations.DecodedBytesAreTheEncoding : Prop :=
  ∀ (bytes : List Byte) (i : Instr) (rest : List Byte), decode bytes = .ok (i, rest) → bytes = encode i ++ rest

/-- A mnemonic declares a mode exactly when lookup_by_mode gives it an opcode byte; lookup_by_opcode gives a pair
for a byte exactly when lookup_by_mode gives that byte for the pair, so opcode bytes are pairwise distinct; a byte
that is no pair's has no entry. -/
def Obligations.CatalogIsOneToOne : Prop :=
  (∀ m md, md ∈ m.modes ↔ ∃ b, lookupByMode m md = .ok b) ∧
  (∀ b m md, lookupByOpcode b = .ok (m, md) ↔ lookupByMode m md = .ok b) ∧
  (∀ b, (∀ m md, lookupByMode m md ≠ .ok b) → lookupByOpcode b = .error (.unknownOpcode b))

/-- lookup_by_opcode fails with UnknownOpcode exactly on the 105 listed bytes (R115), and a buffer that begins with
one of them decodes to that error. -/
def Obligations.UndefinedOpcodeBytesAreThe105 : Prop :=
  ∀ b : Byte, (lookupByOpcode b = .error (.unknownOpcode b) ↔ b ∈ ([
    0x02, 0x03, 0x04, 0x07, 0x0B, 0x0C, 0x0F, 0x12, 0x13, 0x14, 0x17, 0x1A, 0x1B, 0x1C, 0x1F, 0x22, 0x23, 0x27, 0x2B, 0x2F,
    0x32, 0x33, 0x34, 0x37, 0x3A, 0x3B, 0x3C, 0x3F, 0x42, 0x43, 0x44, 0x47, 0x4B, 0x4F, 0x52, 0x53, 0x54, 0x57, 0x5A, 0x5B,
    0x5C, 0x5F, 0x62, 0x63, 0x64, 0x67, 0x6B, 0x6F, 0x72, 0x73, 0x74, 0x77, 0x7A, 0x7B, 0x7C, 0x7F, 0x80, 0x82, 0x83, 0x87,
    0x89, 0x8B, 0x8F, 0x92, 0x93, 0x97, 0x9B, 0x9C, 0x9E, 0x9F, 0xA3, 0xA7, 0xAB, 0xAF, 0xB2, 0xB3, 0xB7, 0xBB, 0xBF, 0xC2,
    0xC3, 0xC7, 0xCB, 0xCF, 0xD2, 0xD3, 0xD4, 0xD7, 0xDA, 0xDB, 0xDC, 0xDF, 0xE2, 0xE3, 0xE7, 0xEB, 0xEF, 0xF2, 0xF3, 0xF4,
    0xF7, 0xFA, 0xFB, 0xFC, 0xFF] : List Byte)) ∧
    (lookupByOpcode b = .error (.unknownOpcode b) → ∀ rest, decode (b :: rest) = .error (.unknownOpcode b))

/-- If the engine is not Faulted and the three bytes from PC on (addresses mod 65536) decode to i, the step is exec
of i in the state with the engine Running and PC moved on by the length of i mod 65536. From R121 and R381; that a
step from Idle or Suspended resumes is notes/assumptions/2.md. -/
def Obligations.StepRunsTheDecodedInstruction : Prop :=
  ∀ (s : State) (i : Instr) (rest : List Byte), s.alive = true →
    decode [s.read s.pc, s.read (s.pc + 1), s.read (s.pc + 2)] = .ok (i, rest) →
    step s = exec i ((s.setEngine .running).setPc (s.pc + BitVec.ofNat 16 i.length))

/-- If the engine is not Faulted and the byte at PC has no catalog entry, the step answers the same state with PC +
1 mod 65536 and the engine Faulted(UnknownOpcode(byte)). R121, R361, R362 under D15; that the fault is a next state
is notes/assumptions/1.md. -/
def Obligations.UnknownOpcodeStopsTheEngine : Prop :=
  ∀ (s : State), s.alive = true → lookupByOpcode (s.read s.pc) = .error (.unknownOpcode (s.read s.pc)) →
    ∃ t, step s = .next t ∧ t.engine = .faulted (.unknownOpcode (s.read s.pc)) ∧
      t.faultRecord = some (.unknownOpcode (s.read s.pc)) ∧ t.pc = s.pc + 1 ∧
      t.sp = s.sp ∧ t.a = s.a ∧ t.x = s.x ∧ t.y = s.y ∧ t.p = s.p ∧ MemSame s t

/-- With the engine Faulted(f): the step answers fault f, run returns f with the state as it is for every
should_break and bound, status is Faulted(f), and the host's single step, start, PC injection, register writes and
memory writes are refused, while reads are answered. R384, R386, R404 under D15, D16, D26, D28; the refusals of
single step and injection are notes/assumptions/14.md. -/
def Obligations.FaultedIsTerminal : Prop :=
  ∀ (s : State) (f : Fault), s.engine = .faulted f →
    step s = .fault f ∧ (∀ sb k, run sb k s = .ok (.faulted f s)) ∧ s.status = .ok (.faulted f) ∧
    hostStep s = .error (.refusedIn (.faulted f)) ∧ start s = .error (.refusedIn (.faulted f)) ∧
    (∀ pc, injectPc pc s = .error (.refusedIn (.faulted f))) ∧
    (∀ k v, hostWriteReg k v s = .error (.refusedIn (.faulted f))) ∧
    (∀ a v, hostWriteMem a v s = .error (.refusedIn (.faulted f))) ∧
    (∀ k, hostReadReg k s = .ok (s.reg k)) ∧ (∀ a, hostReadMem a s = .ok (s.read a))

/-- Every instruction has a meaning: a step from an engine that is not Faulted answers a next state, never a fault
outcome and never a refusal. From R363, with notes/assumptions/1.md and 2.md. -/
def Obligations.AliveEngineAlwaysAnswers : Prop :=
  ∀ (s : State), s.alive = true → ∃ t, step s = .next t

/-- For every state whose memory is canonical (addresses strictly rising below 65536, no byte 0x00 listed), whatever
instruction the step decodes, the next state's memory is canonical. The form is the model's own; R71 and R72 say
what it represents. -/
def Obligations.StepKeepsTheInvariant : Prop :=
  ∀ (s t : State), s.Inv → step s = .next t → t.Inv

/-- The reset state meets the invariant; its PC is the little-endian word at 0xFFFC/0xFFFD; every address reads
0x00; the engine is Idle and the fault record empty (R53, R400, R404, under D14). It says nothing of A, X, Y, SP and
P, whose values are the model's choice (notes/assumptions/3.md). -/
def Obligations.ResetStateIsAsTheSpecSays : Prop :=
  State.reset.Inv ∧ State.reset.pc = concat (State.reset.read 0xFFFD) (State.reset.read 0xFFFC) ∧
  (∀ a, State.reset.read a = 0x00) ∧ State.reset.engine = .idle ∧ State.reset.faultRecord = none

/-- In a state whose memory is canonical: a write succeeds, the address then reads as the byte written, a later
write to any other address does not change that, every other address reads as before, and the memory stays
canonical. What is read is R72; the canonical form, as premise and as conclusion, is the model's own
(notes/assumptions/18.md). -/
def Obligations.MemoryReadsBackWhatIsWritten : Prop :=
  ∀ (s : State) (a : Word) (v : Byte), s.Inv →
    (s.write a v).read a = v ∧ MemSameOutside [a] s (s.write a v) ∧ (s.write a v).Inv ∧
    (∀ b w, b ≠ a → ((s.write a v).write b w).read a = v)

/-- For every instruction and state: if a byte reads differently after exec, then either the instruction is a store
or a read-modify-write and the byte is at its effective address, computed in the state before, or it is PHA, PHP,
JSR or BRK and the byte is in the stack page above 0x0100. From R79, R82 (marked derived) and R200. -/
def Obligations.MemoryIsWrittenOnlyByStoresAndPushes : Prop :=
  ∀ (i : Instr) (s t : State) (a : Word), exec i s = .next t → t.read a ≠ s.read a →
    (i.mnemonic ∈ [.sta, .stx, .sty, .inc, .dec, .asl, .lsr, .rol, .ror] ∧
      ∃ d, i.operand.mem? = some d ∧ a = ea d s) ∨
    (i.mnemonic ∈ [.pha, .php, .jsr, .brk] ∧ 0x0101 ≤ a.toNat ∧ a.toNat ≤ 0x01FF)

/-- ZeroPage: EA is the operand. ZeroPageX and ZeroPageY: EA is (operand + index) mod 256, never in page 1; operand
0xFF with X = 0x02 gives 0x0001. Absolute: EA is the operand. None of the four depends on memory. -/
def Obligations.ZeroPageAndAbsoluteAddresses : Prop :=
  ∀ (s : State) (zp : Byte) (addr : Word),
    (ea (.zeroPage zp) s).toNat = zp.toNat ∧
    (ea (.zeroPageX zp) s).toNat = (zp.toNat + s.x.toNat) % 256 ∧
    (ea (.zeroPageY zp) s).toNat = (zp.toNat + s.y.toNat) % 256 ∧
    (s.x = 0x02 → ea (.zeroPageX 0xFF) s = 0x0001) ∧ ea (.absolute addr) s = addr ∧
    (∀ m d, d ∈ [MemOperand.zeroPage zp, .zeroPageX zp, .zeroPageY zp, .absolute addr] →
      ea d (s.setMem m) = ea d s)

/-- Relative: (PC + the displacement read as two's complement) mod 65536. AbsoluteX, AbsoluteY: (operand + index)
mod 65536. Indirect: low byte at the operand, high byte at (operand + 1) mod 65536. R143, R145, R146; the wrap is
the spec's decision D4. -/
def Obligations.IndexedAndRelativeAddressesWrap : Prop :=
  ∀ (s : State) (disp : Byte) (w : Word),
    (ea (.relative disp) s).toNat =
      (s.pc.toNat + (if disp.toNat < 128 then disp.toNat else disp.toNat + 0xFF00)) % 65536 ∧
    (ea (.absoluteX w) s).toNat = (w.toNat + s.x.toNat) % 65536 ∧
    (ea (.absoluteY w) s).toNat = (w.toNat + s.y.toNat) % 65536 ∧
    (ea (.indirect w) s).toNat =
      (s.read (BitVec.ofNat 16 ((w.toNat + 1) % 65536))).toNat * 256 + (s.read w).toNat

/-- IndirectX: the pointer at (operand + X) mod 256, its high byte at the next zero-page address mod 256. IndirectY:
the pointer at the operand, plus Y, mod 65536. R147, R148, R152 under the default ZP_POINTER_WRAP = true (D5;
notes/assumptions/11.md). With the switch false the high byte is at p + 1, and the readings differ only for p =
0xFF. -/
def Obligations.ZeroPagePointersAndTheirSwitch : Prop :=
  (∀ (s : State) (zp : Byte),
    (ea (.indirectX zp) s).toNat =
      (s.read (BitVec.ofNat 16 ((zp.toNat + s.x.toNat + 1) % 256))).toNat * 256 +
        (s.read (BitVec.ofNat 16 ((zp.toNat + s.x.toNat) % 256))).toNat ∧
    (ea (.indirectY zp) s).toNat =
      ((s.read (BitVec.ofNat 16 ((zp.toNat + 1) % 256))).toNat * 256 + (s.read (BitVec.ofNat 16 zp.toNat)).toNat +
        s.y.toNat) % 65536) ∧
  (∀ (s : State) (p : Byte), zpRead16 s p = zpRead16With true s p ∧
    (p ≠ 0xFF → zpRead16With false s p = zpRead16With true s p)) ∧
  (∀ (s : State), (zpRead16With false s 0xFF).toNat = (s.read 0x0100).toNat * 256 + (s.read 0x00FF).toNat)

/-- ReadOperand returns A for Accumulator, the operand as a byte for Immediate, and the byte at the effective
address for every other mode. -/
def Obligations.OperandsAreReadByMode : Prop :=
  ∀ (s : State) (v : Byte) (m : MemOperand),
    readOperand .accumulator s = s.a ∧ readOperand (.immediate v) s = v ∧
    readOperand (.mem m) s = s.mem.read (ea m s)

/-- For every form of LDA, LDX and LDY, with the operands and opcode bytes the rules list, and every state: exec
answers a next state in which the register holds the operand read, Z and N follow it, every other register and bit,
the engine and every byte of memory are unchanged. -/
def Obligations.LoadsWriteTheirRegister : Prop :=
  HasForms .lda [(.immediate, 0xA9), (.zeroPage, 0xA5), (.zeroPageX, 0xB5), (.absolute, 0xAD), (.absoluteX, 0xBD), (.absoluteY, 0xB9), (.indirectX, 0xA1), (.indirectY, 0xB1)] ∧
  HasForms .ldx [(.immediate, 0xA2), (.zeroPage, 0xA6), (.zeroPageY, 0xB6), (.absolute, 0xAE), (.absoluteY, 0xBE)] ∧
  HasForms .ldy [(.immediate, 0xA0), (.zeroPage, 0xA4), (.zeroPageX, 0xB4), (.absolute, 0xAC), (.absoluteX, 0xBC)] ∧
  IsLoad .lda .a State.a ∧ IsLoad .ldx .x State.x ∧ IsLoad .ldy .y State.y

/-- For every form of STA, STX and STY, with the operands and opcode bytes the rules list, and every state: exec
answers a next state in which the byte at the effective address, computed in the state before, is the register (in a
canonical memory), every other byte reads as before, and no register, bit of P or engine state changes. -/
def Obligations.StoresWriteOneByte : Prop :=
  HasForms .sta [(.zeroPage, 0x85), (.zeroPageX, 0x95), (.absolute, 0x8D), (.absoluteX, 0x9D), (.absoluteY, 0x99), (.indirectX, 0x81), (.indirectY, 0x91)] ∧
  HasForms .stx [(.zeroPage, 0x86), (.zeroPageY, 0x96), (.absolute, 0x8E)] ∧
  HasForms .sty [(.zeroPage, 0x84), (.zeroPageX, 0x94), (.absolute, 0x8C)] ∧
  IsStore .sta State.a ∧ IsStore .stx State.x ∧ IsStore .sty State.y

/-- For every state, each of TAX, TAY, TXA, TYA and TSX, with its one form and opcode byte, answers a next state in
which the destination register holds the source, Z and N follow it, and all else is unchanged. -/
def Obligations.TransfersCopyARegister : Prop :=
  HasForms .tax [(.implicit, 0xAA)] ∧ HasForms .tay [(.implicit, 0xA8)] ∧ HasForms .txa [(.implicit, 0x8A)] ∧
  HasForms .tya [(.implicit, 0x98)] ∧ HasForms .tsx [(.implicit, 0xBA)] ∧
  IsTransfer .tax State.a State.x .x ∧ IsTransfer .tay State.a State.y .y ∧ IsTransfer .txa State.x State.a .a ∧
  IsTransfer .tya State.y State.a .a ∧ IsTransfer .tsx State.sp State.x .x

/-- For every state TXS answers a next state in which SP holds X, Z and N follow X, and all else is unchanged; under
TXS_SETS_ZN = false no bit of P changes. R186; the default is D18 (notes/assumptions/10.md). -/
def Obligations.TxsSetsSpAndFlags : Prop :=
  HasForms .txs [(.implicit, 0x9A)] ∧ IsTransfer .txs State.x State.sp .sp ∧
  ∀ s, (doTxsWith false s).sp = s.x ∧ Frame [.sp] [] s (doTxsWith false s) ∧ MemSame s (doTxsWith false s)

/-- Push at SP = 0x00 raises StackOverflow with nothing written and SP unchanged, else writes the byte at 0x0100 +
SP and decrements SP. Pull at SP = 0xFF raises StackUnderflow with SP unchanged, else increments SP and returns the
byte at 0x0100 + SP. -/
def Obligations.PushAndPullOfOneByte : Prop :=
  ∀ (s : State) (v : Byte),
    (s.sp = 0x00 → push v s = .raised .stackOverflow s) ∧
    (s.sp ≠ 0x00 → ∃ t, push v s = .done () t ∧ t.sp.toNat = s.sp.toNat - 1 ∧
      (s.Inv → t.read (BitVec.ofNat 16 (0x0100 + s.sp.toNat)) = v) ∧ Frame [.sp] [] s t ∧
      MemSameOutside [BitVec.ofNat 16 (0x0100 + s.sp.toNat)] s t) ∧
    (s.sp = 0xFF → pull s = .raised .stackUnderflow s) ∧
    (s.sp ≠ 0xFF → ∃ t, pull s = .done (s.read (BitVec.ofNat 16 (0x0100 + s.sp.toNat + 1))) t ∧
      t.sp.toNat = s.sp.toNat + 1 ∧ Frame [.sp] [] s t ∧ MemSame s t)

/-- In a canonical memory, for every SP other than 0x00 and every byte: the push succeeds, the pull after it returns
the byte, and SP, every other register, P and the engine are as before the push. R207, marked derived for SP = 0xFF.
-/
def Obligations.PushThenPullGivesTheByteBack : Prop :=
  ∀ (s : State) (v : Byte), s.Inv → s.sp ≠ 0x00 →
    ∃ t u, push v s = .done () t ∧ pull t = .done v u ∧ u.registers = s.registers ∧ u.engine = s.engine

/-- For every state with SP ≠ 0x00, PHA answers a next state with A at 0x0100 + SP and SP - 1, and PHP one with P
pushed with bit 4 set and its other bits, bit 5 among them, as they stand; every other byte, register and bit and
the engine are unchanged. R204, R210, R211 (D29 for bit 5). -/
def Obligations.PhaAndPhpPush : Prop :=
  HasForms .pha [(.implicit, 0x48)] ∧ HasForms .php [(.implicit, 0x08)] ∧
  ∀ (s : State), s.sp ≠ 0x00 →
    (∃ t, exec .pha s = .next t ∧ t.sp.toNat = s.sp.toNat - 1 ∧ (s.Inv → t.read (stackSlot s.sp) = s.a) ∧
      Frame [.sp] [] s t ∧ MemSameOutside [stackSlot s.sp] s t) ∧
    (∃ t, exec .php s = .next t ∧ t.sp.toNat = s.sp.toNat - 1 ∧
      (s.Inv → testFlag .b (t.read (stackSlot s.sp)) = true ∧
        ∀ f, f ≠ .b → testFlag f (t.read (stackSlot s.sp)) = s.flag f) ∧
      Frame [.sp] [] s t ∧ MemSameOutside [stackSlot s.sp] s t)

/-- For every state with SP ≠ 0xFF, PLA answers a next state in which A is the byte at 0x0100 + SP + 1 and Z and N
follow it; PLP one in which every bit of P but B is that byte's and B is unchanged; SP is one more; memory and all
else are unchanged. R205, R212, R213. -/
def Obligations.PlaAndPlpPull : Prop :=
  HasForms .pla [(.implicit, 0x68)] ∧ HasForms .plp [(.implicit, 0x28)] ∧
  ∀ (s : State), s.sp ≠ 0xFF →
    (∃ t, exec .pla s = .next t ∧ t.sp.toNat = s.sp.toNat + 1 ∧ t.a = s.read (stackSlot (s.sp + 1)) ∧
      ZNFollow t.a t ∧ Frame [.sp, .a] [.z, .n] s t ∧ MemSame s t) ∧
    (∃ t, exec .plp s = .next t ∧ t.sp.toNat = s.sp.toNat + 1 ∧ t.flag .b = s.flag .b ∧
      (∀ f, f ≠ .b → t.flag f = testFlag f (s.read (stackSlot (s.sp + 1)))) ∧
      Frame [.sp] [.c, .z, .i, .d, .u, .v, .n] s t ∧ MemSame s t)

/-- At SP = 0x00 PHA and PHP answer the same state with the engine Faulted(StackOverflow); at SP = 0xFF PLA and PLP
answer it Faulted(StackUnderflow). R200, R201, R361 under D15; that the fault is a next state is
notes/assumptions/1.md. -/
def Obligations.OneByteStackFaults : Prop :=
  ∀ (s : State),
    (s.sp = 0x00 → FaultsUntouched .pha .stackOverflow s ∧ FaultsUntouched .php .stackOverflow s) ∧
    (s.sp = 0xFF → FaultsUntouched .pla .stackUnderflow s ∧ FaultsUntouched .plp .stackUnderflow s)

/-- For every form of ADC and every state: with sum = A + operand + C as numbers, A becomes sum mod 256, C and V
become (sum > 255), Z and N follow the new A, and all else is unchanged, D having no part in it. R231, R236, R240
under ADC_V_RULE = carry (D6; notes/assumptions/7.md). -/
def Obligations.AdcAddsWithCarry : Prop :=
  HasForms .adc [(.immediate, 0x69), (.zeroPage, 0x65), (.zeroPageX, 0x75), (.absolute, 0x6D), (.absoluteX, 0x7D), (.absoluteY, 0x79), (.indirectX, 0x61), (.indirectY, 0x71)] ∧
  ∀ (i : Instr) (s : State), i.mnemonic = .adc → ∃ src t sum, i.operand.source? = some src ∧ exec i s = .next t ∧
    sum = s.a.toNat + (readOperand src s).toNat + (s.flag .c).toNat ∧ t.a.toNat = sum % 256 ∧
    t.flag .c = decide (sum > 255) ∧ t.flag .v = decide (sum > 255) ∧ ZNFollow t.a t ∧
    Frame [.a] [.c, .v, .z, .n] s t ∧ MemSame s t

/-- For every form of SBC and every state: with d = A - operand - C as integers, A becomes d mod 256, C becomes (d <
0), Z and N follow the new A, V and all else are unchanged. R232, R236, R241 under SBC_V_RULE = unchanged (D7;
notes/assumptions/8.md). -/
def Obligations.SbcSubtractsWithBorrow : Prop :=
  HasForms .sbc [(.immediate, 0xE9), (.zeroPage, 0xE5), (.zeroPageX, 0xF5), (.absolute, 0xED), (.absoluteX, 0xFD), (.absoluteY, 0xF9), (.indirectX, 0xE1), (.indirectY, 0xF1)] ∧
  ∀ (i : Instr) (s : State), i.mnemonic = .sbc → ∃ src t, ∃ d : Int, i.operand.source? = some src ∧
    exec i s = .next t ∧ d = (s.a.toNat : Int) - (readOperand src s).toNat - (s.flag .c).toNat ∧
    (t.a.toNat : Int) = d % 256 ∧ t.flag .c = decide (d < 0) ∧ ZNFollow t.a t ∧
    Frame [.a] [.c, .z, .n] s t ∧ MemSame s t

/-- Add and Sub under signed give the same result and the same bits but V as under the defaults; V is then set
exactly when the result read as two's complement is not the exact signed sum or difference. R10, R231, R232
(notes/assumptions/7.md and 8.md). -/
def Obligations.SignedOverflowReadingsDifferOnlyInV : Prop :=
  ∀ (a b p : Byte),
    (aluAddWith .signed a b p).result = (aluAdd a b p).result ∧
    (∀ f, f ≠ .v → testFlag f (aluAddWith .signed a b p).p = testFlag f (aluAdd a b p).p) ∧
    (testFlag .v (aluAddWith .signed a b p).p =
      decide ((aluAdd a b p).result.toInt ≠ a.toInt + b.toInt + (testFlag .c p).toNat)) ∧
    (aluSubWith .signed a b p).result = (aluSub a b p).result ∧
    (∀ f, f ≠ .v → testFlag f (aluSubWith .signed a b p).p = testFlag f (aluSub a b p).p) ∧
    (testFlag .v (aluSubWith .signed a b p).p =
      decide ((aluSub a b p).result.toInt ≠ a.toInt - b.toInt - (testFlag .c p).toNat))

/-- For every form of AND, ORA and EOR, with the operands and opcode bytes the rules list, and every state: exec
answers a next state in which A is A & operand, A | operand, A ^ operand, Z and N follow the new A, and all else is
unchanged, C and V among it. -/
def Obligations.LogicalInstructionsCombineIntoA : Prop :=
  HasForms .and [(.immediate, 0x29), (.zeroPage, 0x25), (.zeroPageX, 0x35), (.absolute, 0x2D), (.absoluteX, 0x3D), (.absoluteY, 0x39), (.indirectX, 0x21), (.indirectY, 0x31)] ∧
  HasForms .ora [(.immediate, 0x09), (.zeroPage, 0x05), (.zeroPageX, 0x15), (.absolute, 0x0D), (.absoluteX, 0x1D), (.absoluteY, 0x19), (.indirectX, 0x01), (.indirectY, 0x11)] ∧
  HasForms .eor [(.immediate, 0x49), (.zeroPage, 0x45), (.zeroPageX, 0x55), (.absolute, 0x4D), (.absoluteX, 0x5D), (.absoluteY, 0x59), (.indirectX, 0x41), (.indirectY, 0x51)] ∧
  IsLogical .and (· &&& ·) ∧ IsLogical .ora (· ||| ·) ∧ IsLogical .eor (· ^^^ ·)

/-- For every form of CMP, CPX and CPY and every state: C becomes (register ≥ operand) unsigned, Z and N follow
(register - operand) mod 256, the incoming C is ignored, V, every register and memory are unchanged; under
CMP_C_RULE = borrow only C differs, and it is the opposite. R250, R251, R252, R254 under CMP_C_RULE = nmos (D8;
notes/assumptions/9.md). -/
def Obligations.ComparesSetFlagsOnly : Prop :=
  HasForms .cmp [(.immediate, 0xC9), (.zeroPage, 0xC5), (.zeroPageX, 0xD5), (.absolute, 0xCD), (.absoluteX, 0xDD), (.absoluteY, 0xD9), (.indirectX, 0xC1), (.indirectY, 0xD1)] ∧
  HasForms .cpx [(.immediate, 0xE0), (.zeroPage, 0xE4), (.absolute, 0xEC)] ∧
  HasForms .cpy [(.immediate, 0xC0), (.zeroPage, 0xC4), (.absolute, 0xCC)] ∧
  IsCompare .cmp State.a ∧ IsCompare .cpx State.x ∧ IsCompare .cpy State.y ∧
  ∀ r m p f, testFlag f (aluCompareWith .borrow r m p) =
    if f = .c then !testFlag .c (aluCompare r m p) else testFlag f (aluCompare r m p)

/-- For both forms of BIT and every state: Z becomes (A & m = 0), N bit 7 of m, V bit 6 of m, where m is the operand
read; C, A, every other register and memory are unchanged. R255 (D9). -/
def Obligations.BitTestsMemoryAgainstA : Prop :=
  HasForms .bit [(.zeroPage, 0x24), (.absolute, 0x2C)] ∧
  ∀ (i : Instr) (s : State), i.mnemonic = .bit → ∃ src t, i.operand.source? = some src ∧ exec i s = .next t ∧
    t.flag .z = decide (s.a &&& readOperand src s = 0) ∧ t.flag .n = decide (128 ≤ (readOperand src s).toNat) ∧
    t.flag .v = decide (64 ≤ (readOperand src s).toNat % 128) ∧ Frame [] [.z, .n, .v] s t ∧ MemSame s t

/-- For every form of INC and DEC, with the operands and opcode bytes the rules list, and every state: exec answers
a next state in which the byte at the effective address, computed in the state before, is one more (one less) mod
256 (in a canonical memory), Z and N follow it, and every other byte, register and bit, C and V among them, is
unchanged. -/
def Obligations.IncAndDecStepAMemoryByte : Prop :=
  HasForms .inc [(.zeroPage, 0xE6), (.zeroPageX, 0xF6), (.absolute, 0xEE), (.absoluteX, 0xFE)] ∧
  HasForms .dec [(.zeroPage, 0xC6), (.zeroPageX, 0xD6), (.absolute, 0xCE), (.absoluteX, 0xDE)] ∧
  IsMemoryStep .inc (· + 1) ∧ IsMemoryStep .dec (· + 255)

/-- For every state, each of INX, INY, DEX and DEY, with its one form and opcode byte, answers a next state in which
its register is one more (one less) mod 256, Z and N follow it, and all else is unchanged, C and V among it. -/
def Obligations.RegisterIncrementsAndDecrements : Prop :=
  HasForms .inx [(.implicit, 0xE8)] ∧ HasForms .iny [(.implicit, 0xC8)] ∧ HasForms .dex [(.implicit, 0xCA)] ∧
  HasForms .dey [(.implicit, 0x88)] ∧
  IsRegisterStep .inx State.x .x (· + 1) ∧ IsRegisterStep .iny State.y .y (· + 1) ∧
  IsRegisterStep .dex State.x .x (· + 255) ∧ IsRegisterStep .dey State.y .y (· + 255)

/-- For every form of ASL, LSR, ROL and ROR, with the operands and opcode bytes the rules list, and every state:
with v the operand and c the carry before, the result is 2v mod 256, v / 2, 2v mod 256 + c, v / 2 + 128c, C becomes
bit 7, bit 0, bit 7, bit 0 of v, Z and N follow the result, which goes to A in Accumulator mode (no memory changes)
or to the effective address (nothing else in memory changes, A unchanged); V and all else are unchanged. -/
def Obligations.ShiftsAndRotates : Prop :=
  HasForms .asl [(.accumulator, 0x0A), (.zeroPage, 0x06), (.zeroPageX, 0x16), (.absolute, 0x0E), (.absoluteX, 0x1E)] ∧
  HasForms .lsr [(.accumulator, 0x4A), (.zeroPage, 0x46), (.zeroPageX, 0x56), (.absolute, 0x4E), (.absoluteX, 0x5E)] ∧
  HasForms .rol [(.accumulator, 0x2A), (.zeroPage, 0x26), (.zeroPageX, 0x36), (.absolute, 0x2E), (.absoluteX, 0x3E)] ∧
  HasForms .ror [(.accumulator, 0x6A), (.zeroPage, 0x66), (.zeroPageX, 0x76), (.absolute, 0x6E), (.absoluteX, 0x7E)] ∧
  IsShift .asl (fun v _ => 2 * v % 256) (fun v => decide (128 ≤ v)) ∧
  IsShift .lsr (fun v _ => v / 2) (fun v => decide (v % 2 = 1)) ∧
  IsShift .rol (fun v c => 2 * v % 256 + c) (fun v => decide (128 ≤ v)) ∧
  IsShift .ror (fun v c => v / 2 + 128 * c) (fun v => decide (v % 2 = 1))

/-- For both forms of JMP and every state exec answers a next state in which PC is the effective address: the
operand, or the word read at the operand, whose high byte is at operand + 1 even across a page; all else is
unchanged. With 0x34 at 0x10FF and 0x12 at 0x1100, JMP ($10FF) gives 0x1234. R300; for an operand of 0xFFFF the high
byte is at 0x0000, by the spec's decision D4 (notes/assumptions/13.md). -/
def Obligations.JumpsSetPc : Prop :=
  HasForms .jmp [(.absolute, 0x4C), (.indirect, 0x6C)] ∧
  (∀ (i : Instr) (s : State), i.mnemonic = .jmp → ∃ m t, i.operand.mem? = some m ∧ exec i s = .next t ∧
    t.pc = ea m s ∧ Frame [.pc] [] s t ∧ MemSame s t) ∧
  (∀ (s : State) (w : Word), ea (.absolute w) s = w ∧ ea (.indirect w) s = concat (s.read (w + 1)) (s.read w)) ∧
  (∀ (s : State), s.read 0x10FF = 0x34 → s.read 0x1100 = 0x12 → ∃ t, exec (.jmpInd 0x10FF) s = .next t ∧ t.pc = 0x1234)

/-- For every state with SP ≥ 2 and every target: JSR answers a next state in which PC is the target, the bytes at
0x0100 + SP and 0x0100 + SP - 1 are the high and low byte of the PC at call time (in a canonical memory), SP is two
less, and every other byte, register and bit and the engine are unchanged. R75 (marked derived), R202, R301. -/
def Obligations.JsrPushesTheReturnAddress : Prop :=
  HasForms .jsr [(.absolute, 0x20)] ∧
  ∀ (s : State) (target : Word), 2 ≤ s.sp.toNat → ∃ t, exec (.jsrAbs target) s = .next t ∧ t.pc = target ∧
    t.sp.toNat = s.sp.toNat - 2 ∧
    (s.Inv → (t.read (stackSlot s.sp)).toNat = s.pc.toNat / 256 ∧
      (t.read (stackSlot (s.sp - 1))).toNat = s.pc.toNat % 256) ∧
    Frame [.pc, .sp] [] s t ∧ MemSameOutside [stackSlot s.sp, stackSlot (s.sp - 1)] s t

/-- For every state with SP ≤ 0xFD: RTS answers a next state in which PC is the word with low byte at 0x0100 + SP +
1 and high byte at 0x0100 + SP + 2, SP is two more, and memory, every other register and bit and the engine are
unchanged. R203, R302. -/
def Obligations.RtsPullsTheReturnAddress : Prop :=
  HasForms .rts [(.implicit, 0x60)] ∧
  ∀ (s : State), s.sp.toNat ≤ 0xFD → ∃ t, exec .rts s = .next t ∧
    t.pc.toNat = (s.read (stackSlot (s.sp + 2))).toNat * 256 + (s.read (stackSlot (s.sp + 1))).toNat ∧
    t.sp.toNat = s.sp.toNat + 2 ∧ Frame [.pc, .sp] [] s t ∧ MemSame s t

/-- In a canonical memory, for every state with SP ≥ 2 and every target: JSR answers a next state at the target, and
RTS in that state answers one whose registers are those before the JSR, PC among them, and whose engine state is as
before. From R301 and R302. -/
def Obligations.JsrThenRtsComesBack : Prop :=
  ∀ (s : State) (target : Word), s.Inv → 2 ≤ s.sp.toNat →
    ∃ t u, exec (.jsrAbs target) s = .next t ∧ t.pc = target ∧ exec .rts t = .next u ∧ u.registers = s.registers ∧
      u.engine = s.engine

/-- JSR at SP = 0x00 writes nothing; at SP = 0x01 the high byte is at 0x0101 and SP is 0x00; both leave PC and the
engine Faulted(StackOverflow). RTS at SP = 0xFF reads nothing; at SP = 0xFE SP becomes 0xFF; both leave PC and the
engine Faulted(StackUnderflow). R206, R301, R302 under D15; the fault is a next state (notes/assumptions/1.md). -/
def Obligations.CallAndReturnFaults : Prop :=
  ∀ (s : State) (target : Word),
    (s.sp = 0x00 → FaultsUntouched (.jsrAbs target) .stackOverflow s) ∧
    (s.sp = 0x01 → ∃ t, exec (.jsrAbs target) s = .next t ∧ t.engine = .faulted .stackOverflow ∧ t.sp = 0x00 ∧
      t.pc = s.pc ∧ t.a = s.a ∧ t.x = s.x ∧ t.y = s.y ∧ t.p = s.p ∧
      (s.Inv → (t.read 0x0101).toNat = s.pc.toNat / 256) ∧ MemSameOutside [0x0101] s t) ∧
    (s.sp = 0xFF → FaultsUntouched .rts .stackUnderflow s) ∧
    (s.sp = 0xFE → ∃ t, exec .rts s = .next t ∧ t.engine = .faulted .stackUnderflow ∧ t.sp = 0xFF ∧
      t.pc = s.pc ∧ t.a = s.a ∧ t.x = s.x ∧ t.y = s.y ∧ t.p = s.p ∧ MemSame s t)

/-- For each of BCC, BCS, BEQ, BNE, BMI, BPL, BVC, BVS, with its opcode byte, every displacement and every state:
exec answers a next state in which PC is the Relative effective address if the bit it tests has the value it tests
for, and unchanged otherwise; nothing else changes. Displacement 0x00 goes to the next instruction and 0xFE to the
branch itself, two bytes before it. -/
def Obligations.BranchesTestOneFlag : Prop :=
  HasForms .bcc [(.relative, 0x90)] ∧ HasForms .bcs [(.relative, 0xB0)] ∧ HasForms .beq [(.relative, 0xF0)] ∧
  HasForms .bne [(.relative, 0xD0)] ∧ HasForms .bmi [(.relative, 0x30)] ∧ HasForms .bpl [(.relative, 0x10)] ∧
  HasForms .bvc [(.relative, 0x50)] ∧ HasForms .bvs [(.relative, 0x70)] ∧
  IsBranch .bcc .c false ∧ IsBranch .bcs .c true ∧ IsBranch .beq .z true ∧ IsBranch .bne .z false ∧
  IsBranch .bmi .n true ∧ IsBranch .bpl .n false ∧ IsBranch .bvc .v false ∧ IsBranch .bvs .v true ∧
  (∀ (s : State), ea (.relative 0x00) s = s.pc ∧ ea (.relative 0xFE) s + 2 = s.pc)

/-- For every state with I = 0 and SP ≥ 3: BRK answers a next state in which the bytes at 0x0100 + SP, SP - 1, SP -
2 are the high and low byte of (PC after decode + 1) mod 65536, that is the BRK's address + 2, and P with bit 4 set
(in a canonical memory); PC is the word at 0xFFFE/0xFFFF; SP is three less; the engine is Suspended; P, A, X, Y and
every other byte are unchanged. R330, R370 under D10, D11, D23. -/
def Obligations.TakenBrkEntersTheTrap : Prop :=
  HasForms .brk [(.implicit, 0x00)] ∧
  ∀ (s : State), s.flag .i = false → 3 ≤ s.sp.toNat → ∃ t, exec .brk s = .next t ∧
    t.pc.toNat = (s.read 0xFFFF).toNat * 256 + (s.read 0xFFFE).toNat ∧ t.sp.toNat = s.sp.toNat - 3 ∧
    t.engine = .suspended ∧ t.p = s.p ∧ t.a = s.a ∧ t.x = s.x ∧ t.y = s.y ∧
    (s.Inv → (t.read (stackSlot s.sp)).toNat = (s.pc.toNat + 1) % 65536 / 256 ∧
      (t.read (stackSlot (s.sp - 1))).toNat = (s.pc.toNat + 1) % 256 ∧
      ∀ f, testFlag f (t.read (stackSlot (s.sp - 2))) = (s.flag f || decide (f = .b))) ∧
    MemSameOutside [stackSlot s.sp, stackSlot (s.sp - 1), stackSlot (s.sp - 2)] s t

/-- For every state with I = 1, BRK answers that same state: no push, no vector, no suspension, nothing held
pending. R330, R365 under D10. -/
def Obligations.MaskedBrkDoesNothing : Prop :=
  ∀ (s : State), s.flag .i = true → exec .brk s = .next s

/-- With I = 0: at SP = 0x00 nothing is written; at 0x01 the high return byte is at 0x0101; at 0x02 both return
bytes are at 0x0102 and 0x0101; SP is then 0x00, PC, P, A, X, Y unchanged and the engine Faulted(StackOverflow), not
Suspended. R206, R330, R367 under D15, D22; the fault is a next state (notes/assumptions/1.md). -/
def Obligations.BrkFaultsBeforeTheVector : Prop :=
  ∀ (s : State), s.flag .i = false →
    (s.sp = 0x00 → FaultsUntouched .brk .stackOverflow s) ∧
    (s.sp = 0x01 ∨ s.sp = 0x02 → ∃ t, exec .brk s = .next t ∧ t.engine = .faulted .stackOverflow ∧ t.sp = 0x00 ∧
      t.pc = s.pc ∧ t.p = s.p ∧ t.a = s.a ∧ t.x = s.x ∧ t.y = s.y ∧
      (s.sp = 0x01 → (s.Inv → (t.read 0x0101).toNat = (s.pc.toNat + 1) % 65536 / 256) ∧
        MemSameOutside [0x0101] s t) ∧
      (s.sp = 0x02 → (s.Inv → (t.read 0x0102).toNat = (s.pc.toNat + 1) % 65536 / 256 ∧
        (t.read 0x0101).toNat = (s.pc.toNat + 1) % 256) ∧ MemSameOutside [0x0102, 0x0101] s t))

/-- For every state with SP ≤ 0xFC: RTI answers a next state in which every bit of P but B is that of the byte at
0x0100 + SP + 1 and B is unchanged, PC is the word with low byte at SP + 2 and high byte at SP + 3, SP is three
more, and memory, A, X, Y and the engine are unchanged. R205, R331, R371. -/
def Obligations.RtiRestoresFlagsAndPc : Prop :=
  HasForms .rti [(.implicit, 0x40)] ∧
  ∀ (s : State), s.sp.toNat ≤ 0xFC → ∃ t, exec .rti s = .next t ∧ t.flag .b = s.flag .b ∧
    (∀ f, f ≠ .b → t.flag f = testFlag f (s.read (stackSlot (s.sp + 1)))) ∧
    t.pc.toNat = (s.read (stackSlot (s.sp + 3))).toNat * 256 + (s.read (stackSlot (s.sp + 2))).toNat ∧
    t.sp.toNat = s.sp.toNat + 3 ∧ Frame [.pc, .sp] [.c, .z, .i, .d, .u, .v, .n] s t ∧ MemSame s t

/-- RTI at SP = 0xFF pulls nothing; at 0xFE and 0xFD P but for B is already restored from the byte at 0x0100 + SP +
1, SP is 0xFF and PC, A, X, Y and memory are unchanged; the engine is Faulted(StackUnderflow). R206, R331 under D15;
the fault is a next state (notes/assumptions/1.md). -/
def Obligations.RtiFaultsKeepWhatIsDone : Prop :=
  ∀ (s : State),
    (s.sp = 0xFF → FaultsUntouched .rti .stackUnderflow s) ∧
    (s.sp = 0xFE ∨ s.sp = 0xFD → ∃ t, exec .rti s = .next t ∧ t.engine = .faulted .stackUnderflow ∧ t.sp = 0xFF ∧
      t.pc = s.pc ∧ t.a = s.a ∧ t.x = s.x ∧ t.y = s.y ∧ t.flag .b = s.flag .b ∧
      (∀ f, f ≠ .b → t.flag f = testFlag f (s.read (stackSlot (s.sp + 1)))) ∧ MemSame s t)

/-- In a canonical memory, for every state with I = 0 and SP ≥ 3: BRK answers a next state whose engine is
Suspended; after the run loop has taken the engine to Running (R380), RTI answers a next state in which PC is the PC
after the BRK's decode + 1, SP, A, X, Y and P, B and I among its bits, are as before the BRK, and the engine is
Running (R331). R371, marked derived. -/
def Obligations.BrkThenRtiResumes : Prop :=
  ∀ (s : State), s.Inv → s.flag .i = false → 3 ≤ s.sp.toNat →
    ∃ t u, exec .brk s = .next t ∧ t.engine = .suspended ∧ exec .rti t.resume = .next u ∧
      u.registers = { s.registers with pc := s.pc + 1 } ∧ u.engine = .running

/-- NOP, opcode EA, answers the state it is given, for every state; a step of a Running engine at an EA byte gives
PC + 1 mod 65536 and no other change. R121, R332. -/
def Obligations.NopChangesNothing : Prop :=
  HasForms .nop [(.implicit, 0xEA)] ∧ (∀ (s : State), exec .nop s = .next s) ∧
  (∀ (s : State), s.engine = .running → s.read s.pc = 0xEA → step s = .next (s.setPc (s.pc + 1)))

/-- For every state each of the seven, with its one form and opcode byte, answers a next state in which its bit has
its value and every other bit, every register, the engine and memory are unchanged. -/
def Obligations.FlagInstructionsWriteOneBit : Prop :=
  HasForms .clc [(.implicit, 0x18)] ∧ HasForms .cld [(.implicit, 0xD8)] ∧ HasForms .cli [(.implicit, 0x58)] ∧
  HasForms .clv [(.implicit, 0xB8)] ∧ HasForms .sec [(.implicit, 0x38)] ∧ HasForms .sed [(.implicit, 0xF8)] ∧
  HasForms .sei [(.implicit, 0x78)] ∧
  IsFlagWrite .clc .c false ∧ IsFlagWrite .cld .d false ∧ IsFlagWrite .cli .i false ∧ IsFlagWrite .clv .v false ∧
  IsFlagWrite .sec .c true ∧ IsFlagWrite .sed .d true ∧ IsFlagWrite .sei .i true

/-- For every instruction and state, when exec answers a next state: A changes only under LDA, TXA, TYA, PLA, ADC,
SBC, AND, ORA, EOR or a shift or rotate in Accumulator mode; X only under LDX, TAX, TSX, INX, DEX; Y only under LDY,
TAY, INY, DEY; SP only under TXS, PHA, PHP, PLA, PLP, JSR, RTS, RTI, BRK; PC only under JMP, JSR, RTS, RTI, BRK and
the branches. The writers R31 to R35 list. -/
def Obligations.OnlyTheNamedInstructionsWriteARegister : Prop :=
  ∀ (i : Instr) (s t : State), exec i s = .next t →
    (t.a ≠ s.a → i.mnemonic ∈ [.lda, .txa, .tya, .pla, .adc, .sbc, .and, .ora, .eor] ∨
      (i.mnemonic ∈ [.asl, .lsr, .rol, .ror] ∧ i.mode = .accumulator)) ∧
    (t.x ≠ s.x → i.mnemonic ∈ [.ldx, .tax, .tsx, .inx, .dex]) ∧
    (t.y ≠ s.y → i.mnemonic ∈ [.ldy, .tay, .iny, .dey]) ∧
    (t.sp ≠ s.sp → i.mnemonic ∈ [.txs, .pha, .php, .pla, .plp, .jsr, .rts, .rti, .brk]) ∧
    (t.pc ≠ s.pc → i.mnemonic ∈ [.jmp, .jsr, .rts, .rti, .brk, .bcc, .bcs, .beq, .bne, .bmi, .bpl, .bvc, .bvs])

/-- For every instruction and state, when exec answers a next state: each of C, Z, I, D, U, V, N changes only under
the instructions R39 to R46 list for it, and B never changes (R44, marked derived). TXS is among the writers of Z
and N under TXS_SETS_ZN = true (notes/assumptions/10.md); SBC is not among those of V under SBC_V_RULE = unchanged
(notes/assumptions/8.md). -/
def Obligations.OnlyTheNamedInstructionsWriteAFlag : Prop :=
  ∀ (i : Instr) (s t : State), exec i s = .next t →
    (t.flag .c ≠ s.flag .c → i.mnemonic ∈ [.adc, .sbc, .cmp, .cpx, .cpy, .asl, .lsr, .rol, .ror, .clc, .sec, .plp, .rti]) ∧
    (t.flag .z ≠ s.flag .z ∨ t.flag .n ≠ s.flag .n → i.mnemonic ∈ [.lda, .ldx, .ldy, .tax, .tay, .tsx, .txa, .tya, .txs,
      .pla, .adc, .sbc, .and, .ora, .eor, .cmp, .cpx, .cpy, .inc, .dec, .inx, .iny, .dex, .dey, .asl, .lsr, .rol, .ror,
      .bit, .plp, .rti]) ∧
    (t.flag .i ≠ s.flag .i → i.mnemonic ∈ [.cli, .sei, .plp, .rti]) ∧
    (t.flag .d ≠ s.flag .d → i.mnemonic ∈ [.cld, .sed, .plp, .rti]) ∧
    (t.flag .u ≠ s.flag .u → i.mnemonic ∈ [.plp, .rti]) ∧
    (t.flag .v ≠ s.flag .v → i.mnemonic ∈ [.adc, .bit, .clv, .plp, .rti]) ∧ t.flag .b = s.flag .b

/-- For every value v of B and every state with B = v, whatever instruction the step decodes, faults included, the
next state has B = v. R44, marked derived. -/
def Obligations.BreakBitIsKeptByEveryStep : Prop :=
  ∀ (v : Bool) (s t : State), s.flag .b = v → step s = .next t → t.flag .b = v

/-- For every instruction other than PHP and BRK, every state and both values of D: exec from the two states answers
next states that agree in everything but D; PHP and BRK only copy D into the pushed P, so there the registers agree
in everything but D, the engine agrees, every byte but the one at 0x0100 + SP (PHP) or at the slot of SP - 2 (BRK)
agrees, and that byte agrees in every bit but D. R43, R236 under D12. -/
def Obligations.DecimalBitHasNoEffect : Prop :=
  (∀ (i : Instr) (s : State) (v : Bool), i.mnemonic ∉ [.php, .brk] → ∃ t u, exec i s = .next t ∧
    exec i (s.setFlag .d v) = .next u ∧ u.setFlag .d v = t.setFlag .d v) ∧
  (∀ (s : State) (v : Bool), OnlyCopiesD .php (stackSlot s.sp) v s) ∧
  (∀ (s : State) (v : Bool), OnlyCopiesD .brk (stackSlot (s.sp - 2)) v s)

/-- For every instruction and state, when exec answers a next state, one of these holds: the engine is unchanged;
the instruction is BRK, I was 0 and the engine is Suspended; the instruction is PHA, PHP, JSR or BRK, SP is 0x00 and
the engine is Faulted(StackOverflow); it is PLA, PLP, RTS or RTI, SP is 0xFF and the engine is
Faulted(StackUnderflow). R360, R362, R363, R367, R381 under D15, D22, D23. -/
def Obligations.EngineChangesOnlyByBrkAndFaults : Prop :=
  ∀ (i : Instr) (s t : State), exec i s = .next t →
    t.engine = s.engine ∨
    (i.mnemonic = .brk ∧ s.flag .i = false ∧ t.engine = .suspended) ∨
    (i.mnemonic ∈ [.pha, .php, .jsr, .brk] ∧ t.sp = 0x00 ∧ t.engine = .faulted .stackOverflow) ∨
    (i.mnemonic ∈ [.pla, .plp, .rts, .rti] ∧ t.sp = 0xFF ∧ t.engine = .faulted .stackUnderflow)

/-- While the engine is Idle, start gives the same state with PC the little-endian word at 0xFFFC/0xFFFD; with 0x00
and 0x80 there PC is 0x8000. In every other engine state it is refused. R404 under D26 (the refusal while Running is
from R384). -/
def Obligations.StartLoadsTheResetVector : Prop :=
  ∀ (s : State),
    (s.engine = .idle → ∃ t, start s = .ok t ∧ t.pc.toNat = (s.read 0xFFFD).toNat * 256 + (s.read 0xFFFC).toNat ∧
      t = s.setPc t.pc ∧ (s.read 0xFFFC = 0x00 → s.read 0xFFFD = 0x80 → t.pc = 0x8000)) ∧
    (s.engine ≠ .idle → start s = .error (.refusedIn s.engine))

/-- While the engine is Idle and the memory canonical: an image of at most 65536 bytes is loaded at 0x0000 upward,
every address beyond it reads as before, registers and engine are unchanged and the memory stays canonical; a longer
image is ImageTooLarge. R401 under D17; that it is allowed only while Idle is notes/assumptions/14.md. -/
def Obligations.LoadImageFillsMemoryFromZero : Prop :=
  ∀ (s : State) (img : List Byte), s.Inv → s.engine = .idle →
    (img.length ≤ 65536 → ∃ t, loadImage img s = .ok t ∧
      (∀ k, k < img.length → some (t.read (BitVec.ofNat 16 k)) = img[k]?) ∧
      (∀ a, img.length ≤ a.toNat → t.read a = s.read a) ∧
      t.registers = s.registers ∧ t.engine = .idle ∧ t.Inv) ∧
    (65536 < img.length → loadImage img s = .error .imageTooLarge)

/-- While the engine is Idle: configure is an error exactly when some pair has a key outside the six or a value that
is not an unsigned integer; otherwise a register with no pair keeps its value, and one with pairs takes the value of
its last pair mod 65536 (pc) or mod 256 (the others); memory and engine are unchanged. R402 under REGCFG_OVERFLOW =
truncate (D30; notes/assumptions/12.md); decimal digits are notes/assumptions/15.md. -/
def Obligations.ConfigurationIsAllOrNothing : Prop :=
  ∀ (s : State) (pairs : List (List Char × List Char)), s.engine = .idle →
    ((∃ e, configure pairs s = .error e) ↔ ∃ q, q ∈ pairs ∧ (parseKey q.1 = none ∨ parseUnsigned q.2 = none)) ∧
    (∀ t, configure pairs s = .ok t → t.mem = s.mem ∧ t.engine = s.engine ∧
      (∀ k, (∀ q, q ∈ pairs → parseKey q.1 ≠ some k) → t.reg k = s.reg k) ∧
      (∀ k v before key val after, pairs = before ++ (key, val) :: after → parseKey key = some k →
        parseUnsigned val = some v → (∀ q, q ∈ after → parseKey q.1 ≠ some k) → (t.reg k).toNat = v % k.limit))

/-- While the engine is Idle or Suspended, the single step gives the registers and memory the machine's step gives,
with the engine Faulted as that step left it, or else Suspended; while Running it is refused. R387 under D19. -/
def Obligations.HostStepExecutesOneInstruction : Prop :=
  ∀ (s : State),
    (s.engine = .idle ∨ s.engine = .suspended → ∃ t u, step s = .next t ∧ hostStep s = .ok u ∧
      u.registers = t.registers ∧ u.mem = t.mem ∧ u.faultRecord = t.faultRecord ∧
      (t.faultRecord = none → u.engine = .suspended)) ∧
    (s.engine = .running → hostStep s = .error (.refusedIn .running))

/-- A call of run is refused while the engine is Running (R89) and is the loop of R380 in every other engine state;
run_until_break is run with should_break always true (R382). For every should_break, bound and state from which the
step answers a next state t: if t is Faulted, the loop returns that fault with t; if t is Suspended and should_break
is true of it, the loop returns Suspended with t; else the loop goes on from t. If the loop returned Suspended, the
engine is Suspended and should_break is true of its registers and memory; if it returned a fault, the engine is
Faulted with it; no step in it is refused. R380, R386. The bound is the model's (notes/assumptions/20.md): the loop
is unfinished at bound 0 from an engine that is not Faulted, each step uses up one of the bound, and a result that
is not unfinished is the result for every larger bound. That R89 covers the call of run, and that the loop itself
goes on from Running, is notes/assumptions/22.md. -/
def Obligations.RunReturnsAtABreakOrAFault : Prop :=
  ∀ (sb : Registers → Memory → Bool) (k : Nat) (s : State),
    (s.engine = .running → run sb k s = .error (.refusedIn .running)) ∧
    (s.engine ≠ .running → run sb k s = .ok (runLoop sb k s)) ∧ runUntilBreak k s = run (fun _ _ => true) k s ∧
    (∀ t, runLoop sb k s = .suspended t → t.engine = .suspended ∧ sb t.registers t.mem = true) ∧
    (∀ f t, runLoop sb k s = .faulted f t → t.engine = .faulted f) ∧
    (∀ n, (∀ t, runLoop sb k s ≠ .unfinished t) → runLoop sb (k + n) s = runLoop sb k s) ∧
    (∀ r, runLoop sb k s ≠ .refused r) ∧ (s.alive = true → runLoop sb 0 s = .unfinished s) ∧
    (∀ t, step s = .next t →
      (∀ f, t.engine = .faulted f → runLoop sb (k + 1) s = .faulted f t) ∧
      (t.engine = .suspended → sb t.registers t.mem = true → runLoop sb (k + 1) s = .suspended t) ∧
      (t.alive = true → (t.engine = .suspended → sb t.registers t.mem = false) →
        runLoop sb (k + 1) s = runLoop sb k t))

/-- While the engine is Running every operation of the host is refused: both reads, both writes, PC injection, load
image, register configuration, start, run, run_until_break, the single step and status (R89). While it is not
Running status gives the engine state (R7). While it is Idle or Suspended, reads give the register or byte, writes
store it, and injection sets PC and nothing else. R384, R405 under D16, D26. That R89 covers run and status, which
reach no register and no byte themselves, is notes/assumptions/22.md and 23.md. That a register write of a value too
wide for the register keeps its low 16 (PC) or 8 bits is the model's choice (notes/assumptions/21.md). -/
def Obligations.AccessorsFollowTheEngineState : Prop :=
  ∀ (s : State),
    (s.engine = .running → (∀ k, hostReadReg k s = .error (.refusedIn .running)) ∧
      (∀ a, hostReadMem a s = .error (.refusedIn .running)) ∧ (∀ k v, hostWriteReg k v s = .error (.refusedIn .running)) ∧
      (∀ a v, hostWriteMem a v s = .error (.refusedIn .running)) ∧ (∀ pc, injectPc pc s = .error (.refusedIn .running)) ∧
      (∀ img, loadImage img s = .error (.refusedIn .running)) ∧
      (∀ rule pairs, configureWith rule pairs s = .error (.refusedIn .running)) ∧
      start s = .error (.refusedIn .running) ∧ (∀ sb k, run sb k s = .error (.refusedIn .running)) ∧
      (∀ k, runUntilBreak k s = .error (.refusedIn .running)) ∧ hostStep s = .error (.refusedIn .running) ∧
      s.status = .error (.refusedIn .running)) ∧
    (s.engine ≠ .running → s.status = .ok s.engine) ∧
    (s.engine = .idle ∨ s.engine = .suspended → (∀ k, hostReadReg k s = .ok (s.reg k)) ∧
      (∀ a, hostReadMem a s = .ok (s.read a)) ∧
      (∀ k v, ∃ t, hostWriteReg k v s = .ok t ∧ (t.reg k).toNat = v % k.limit ∧ (∀ j, j ≠ k → t.reg j = s.reg j) ∧
        t.mem = s.mem ∧ t.engine = s.engine) ∧
      (∀ a v, ∃ t, hostWriteMem a v s = .ok t ∧ t.registers = s.registers ∧ t.engine = s.engine ∧
        MemSameOutside [a] s t ∧ (s.Inv → t.read a = v)) ∧
      (∀ pc, injectPc pc s = .ok (s.setPc pc)))
end

