-- ==== Sys2Proof/Laws/State.lean ====
section
/-! SUPPORT. One lemma per field per update of State, true by rfl, so that no later proof unfolds a record update. -/

namespace Sys2Proof.Machine

@[simp] theorem State.setPc_pc (s : State) (v : Word) : (s.setPc v).pc = v := rfl
@[simp] theorem State.setPc_sp (s : State) (v : Word) : (s.setPc v).sp = s.sp := rfl
@[simp] theorem State.setPc_a (s : State) (v : Word) : (s.setPc v).a = s.a := rfl
@[simp] theorem State.setPc_x (s : State) (v : Word) : (s.setPc v).x = s.x := rfl
@[simp] theorem State.setPc_y (s : State) (v : Word) : (s.setPc v).y = s.y := rfl
@[simp] theorem State.setPc_p (s : State) (v : Word) : (s.setPc v).p = s.p := rfl
@[simp] theorem State.setPc_mem (s : State) (v : Word) : (s.setPc v).mem = s.mem := rfl
@[simp] theorem State.setPc_engine (s : State) (v : Word) : (s.setPc v).engine = s.engine := rfl

@[simp] theorem State.setSp_pc (s : State) (v : Byte) : (s.setSp v).pc = s.pc := rfl
@[simp] theorem State.setSp_sp (s : State) (v : Byte) : (s.setSp v).sp = v := rfl
@[simp] theorem State.setSp_a (s : State) (v : Byte) : (s.setSp v).a = s.a := rfl
@[simp] theorem State.setSp_x (s : State) (v : Byte) : (s.setSp v).x = s.x := rfl
@[simp] theorem State.setSp_y (s : State) (v : Byte) : (s.setSp v).y = s.y := rfl
@[simp] theorem State.setSp_p (s : State) (v : Byte) : (s.setSp v).p = s.p := rfl
@[simp] theorem State.setSp_mem (s : State) (v : Byte) : (s.setSp v).mem = s.mem := rfl
@[simp] theorem State.setSp_engine (s : State) (v : Byte) : (s.setSp v).engine = s.engine := rfl

@[simp] theorem State.setA_pc (s : State) (v : Byte) : (s.setA v).pc = s.pc := rfl
@[simp] theorem State.setA_sp (s : State) (v : Byte) : (s.setA v).sp = s.sp := rfl
@[simp] theorem State.setA_a (s : State) (v : Byte) : (s.setA v).a = v := rfl
@[simp] theorem State.setA_x (s : State) (v : Byte) : (s.setA v).x = s.x := rfl
@[simp] theorem State.setA_y (s : State) (v : Byte) : (s.setA v).y = s.y := rfl
@[simp] theorem State.setA_p (s : State) (v : Byte) : (s.setA v).p = s.p := rfl
@[simp] theorem State.setA_mem (s : State) (v : Byte) : (s.setA v).mem = s.mem := rfl
@[simp] theorem State.setA_engine (s : State) (v : Byte) : (s.setA v).engine = s.engine := rfl

@[simp] theorem State.setX_pc (s : State) (v : Byte) : (s.setX v).pc = s.pc := rfl
@[simp] theorem State.setX_sp (s : State) (v : Byte) : (s.setX v).sp = s.sp := rfl
@[simp] theorem State.setX_a (s : State) (v : Byte) : (s.setX v).a = s.a := rfl
@[simp] theorem State.setX_x (s : State) (v : Byte) : (s.setX v).x = v := rfl
@[simp] theorem State.setX_y (s : State) (v : Byte) : (s.setX v).y = s.y := rfl
@[simp] theorem State.setX_p (s : State) (v : Byte) : (s.setX v).p = s.p := rfl
@[simp] theorem State.setX_mem (s : State) (v : Byte) : (s.setX v).mem = s.mem := rfl
@[simp] theorem State.setX_engine (s : State) (v : Byte) : (s.setX v).engine = s.engine := rfl

@[simp] theorem State.setY_pc (s : State) (v : Byte) : (s.setY v).pc = s.pc := rfl
@[simp] theorem State.setY_sp (s : State) (v : Byte) : (s.setY v).sp = s.sp := rfl
@[simp] theorem State.setY_a (s : State) (v : Byte) : (s.setY v).a = s.a := rfl
@[simp] theorem State.setY_x (s : State) (v : Byte) : (s.setY v).x = s.x := rfl
@[simp] theorem State.setY_y (s : State) (v : Byte) : (s.setY v).y = v := rfl
@[simp] theorem State.setY_p (s : State) (v : Byte) : (s.setY v).p = s.p := rfl
@[simp] theorem State.setY_mem (s : State) (v : Byte) : (s.setY v).mem = s.mem := rfl
@[simp] theorem State.setY_engine (s : State) (v : Byte) : (s.setY v).engine = s.engine := rfl

@[simp] theorem State.setP_pc (s : State) (v : Byte) : (s.setP v).pc = s.pc := rfl
@[simp] theorem State.setP_sp (s : State) (v : Byte) : (s.setP v).sp = s.sp := rfl
@[simp] theorem State.setP_a (s : State) (v : Byte) : (s.setP v).a = s.a := rfl
@[simp] theorem State.setP_x (s : State) (v : Byte) : (s.setP v).x = s.x := rfl
@[simp] theorem State.setP_y (s : State) (v : Byte) : (s.setP v).y = s.y := rfl
@[simp] theorem State.setP_p (s : State) (v : Byte) : (s.setP v).p = v := rfl
@[simp] theorem State.setP_mem (s : State) (v : Byte) : (s.setP v).mem = s.mem := rfl
@[simp] theorem State.setP_engine (s : State) (v : Byte) : (s.setP v).engine = s.engine := rfl

@[simp] theorem State.setMem_pc (s : State) (v : Memory) : (s.setMem v).pc = s.pc := rfl
@[simp] theorem State.setMem_sp (s : State) (v : Memory) : (s.setMem v).sp = s.sp := rfl
@[simp] theorem State.setMem_a (s : State) (v : Memory) : (s.setMem v).a = s.a := rfl
@[simp] theorem State.setMem_x (s : State) (v : Memory) : (s.setMem v).x = s.x := rfl
@[simp] theorem State.setMem_y (s : State) (v : Memory) : (s.setMem v).y = s.y := rfl
@[simp] theorem State.setMem_p (s : State) (v : Memory) : (s.setMem v).p = s.p := rfl
@[simp] theorem State.setMem_mem (s : State) (v : Memory) : (s.setMem v).mem = v := rfl
@[simp] theorem State.setMem_engine (s : State) (v : Memory) : (s.setMem v).engine = s.engine := rfl

@[simp] theorem State.setEngine_pc (s : State) (v : EngineState) : (s.setEngine v).pc = s.pc := rfl
@[simp] theorem State.setEngine_sp (s : State) (v : EngineState) : (s.setEngine v).sp = s.sp := rfl
@[simp] theorem State.setEngine_a (s : State) (v : EngineState) : (s.setEngine v).a = s.a := rfl
@[simp] theorem State.setEngine_x (s : State) (v : EngineState) : (s.setEngine v).x = s.x := rfl
@[simp] theorem State.setEngine_y (s : State) (v : EngineState) : (s.setEngine v).y = s.y := rfl
@[simp] theorem State.setEngine_p (s : State) (v : EngineState) : (s.setEngine v).p = s.p := rfl
@[simp] theorem State.setEngine_mem (s : State) (v : EngineState) : (s.setEngine v).mem = s.mem := rfl
@[simp] theorem State.setEngine_engine (s : State) (v : EngineState) : (s.setEngine v).engine = v := rfl

/-! The updates built on them. -/

@[simp] theorem State.setZN_pc (s : State) (v : Byte) : (s.setZN v).pc = s.pc := rfl
@[simp] theorem State.setZN_sp (s : State) (v : Byte) : (s.setZN v).sp = s.sp := rfl
@[simp] theorem State.setZN_a (s : State) (v : Byte) : (s.setZN v).a = s.a := rfl
@[simp] theorem State.setZN_x (s : State) (v : Byte) : (s.setZN v).x = s.x := rfl
@[simp] theorem State.setZN_y (s : State) (v : Byte) : (s.setZN v).y = s.y := rfl
@[simp] theorem State.setZN_p (s : State) (v : Byte) : (s.setZN v).p = Machine.setZN v s.p := rfl
@[simp] theorem State.setZN_mem (s : State) (v : Byte) : (s.setZN v).mem = s.mem := rfl
@[simp] theorem State.setZN_engine (s : State) (v : Byte) : (s.setZN v).engine = s.engine := rfl

@[simp] theorem State.setFlag_pc (s : State) (f : Flag) (v : Bool) : (s.setFlag f v).pc = s.pc := rfl
@[simp] theorem State.setFlag_sp (s : State) (f : Flag) (v : Bool) : (s.setFlag f v).sp = s.sp := rfl
@[simp] theorem State.setFlag_a (s : State) (f : Flag) (v : Bool) : (s.setFlag f v).a = s.a := rfl
@[simp] theorem State.setFlag_x (s : State) (f : Flag) (v : Bool) : (s.setFlag f v).x = s.x := rfl
@[simp] theorem State.setFlag_y (s : State) (f : Flag) (v : Bool) : (s.setFlag f v).y = s.y := rfl
@[simp] theorem State.setFlag_p (s : State) (f : Flag) (v : Bool) : (s.setFlag f v).p = writeFlag f v s.p := rfl
@[simp] theorem State.setFlag_mem (s : State) (f : Flag) (v : Bool) : (s.setFlag f v).mem = s.mem := rfl
@[simp] theorem State.setFlag_engine (s : State) (f : Flag) (v : Bool) : (s.setFlag f v).engine = s.engine := rfl

@[simp] theorem State.write_pc (s : State) (addr : Word) (v : Byte) : (s.write addr v).pc = s.pc := rfl
@[simp] theorem State.write_sp (s : State) (addr : Word) (v : Byte) : (s.write addr v).sp = s.sp := rfl
@[simp] theorem State.write_a (s : State) (addr : Word) (v : Byte) : (s.write addr v).a = s.a := rfl
@[simp] theorem State.write_x (s : State) (addr : Word) (v : Byte) : (s.write addr v).x = s.x := rfl
@[simp] theorem State.write_y (s : State) (addr : Word) (v : Byte) : (s.write addr v).y = s.y := rfl
@[simp] theorem State.write_p (s : State) (addr : Word) (v : Byte) : (s.write addr v).p = s.p := rfl
@[simp] theorem State.write_mem (s : State) (addr : Word) (v : Byte) : (s.write addr v).mem = s.mem.write addr v := rfl
@[simp] theorem State.write_engine (s : State) (addr : Word) (v : Byte) : (s.write addr v).engine = s.engine := rfl

@[simp] theorem raiseFault_pc (f : Fault) (s : State) : (raiseFault f s).pc = s.pc := rfl
@[simp] theorem raiseFault_sp (f : Fault) (s : State) : (raiseFault f s).sp = s.sp := rfl
@[simp] theorem raiseFault_a (f : Fault) (s : State) : (raiseFault f s).a = s.a := rfl
@[simp] theorem raiseFault_x (f : Fault) (s : State) : (raiseFault f s).x = s.x := rfl
@[simp] theorem raiseFault_y (f : Fault) (s : State) : (raiseFault f s).y = s.y := rfl
@[simp] theorem raiseFault_p (f : Fault) (s : State) : (raiseFault f s).p = s.p := rfl
@[simp] theorem raiseFault_mem (f : Fault) (s : State) : (raiseFault f s).mem = s.mem := rfl
@[simp] theorem raiseFault_engine (f : Fault) (s : State) : (raiseFault f s).engine = .faulted f := rfl

@[simp] theorem State.resume_pc (s : State) : s.resume.pc = s.pc := rfl
@[simp] theorem State.resume_sp (s : State) : s.resume.sp = s.sp := rfl
@[simp] theorem State.resume_a (s : State) : s.resume.a = s.a := rfl
@[simp] theorem State.resume_x (s : State) : s.resume.x = s.x := rfl
@[simp] theorem State.resume_y (s : State) : s.resume.y = s.y := rfl
@[simp] theorem State.resume_p (s : State) : s.resume.p = s.p := rfl
@[simp] theorem State.resume_mem (s : State) : s.resume.mem = s.mem := rfl
@[simp] theorem State.resume_engine (s : State) : s.resume.engine = .running := rfl

/-- Two states with the same fields are the same state. -/
theorem State.ext_fields {s t : State} (hpc : s.pc = t.pc) (hsp : s.sp = t.sp) (ha : s.a = t.a) (hx : s.x = t.x)
    (hy : s.y = t.y) (hp : s.p = t.p) (hm : s.mem = t.mem) (he : s.engine = t.engine) : s = t := by
  cases s; cases t; simp_all

end Sys2Proof.Machine
end

