-- ==== Sys2Proof/Laws/Flags.lean ====
section
/-! SUPPORT. The laws of the bits of P, and what each ALU operation writes: one lemma per operation. -/

namespace Sys2Proof.Machine

/-- The place of a bit in P (10_state.md R38). -/
def Flag.index : Flag → Nat
  | .c => 0 | .z => 1 | .i => 2 | .d => 3 | .b => 4 | .u => 5 | .v => 6 | .n => 7

theorem testFlag_eq_bit (f : Flag) (p : Byte) : testFlag f p = p.getLsbD f.index := by
  cases f <;> revert p <;> decide

theorem Flag.index_inj {f g : Flag} (h : f.index = g.index) : f = g := by
  cases f <;> cases g <;> first | rfl | (exact absurd h (by decide))

theorem Flag.mask_bit (f g : Flag) : f.mask.getLsbD g.index = decide (g = f) := by
  cases f <;> cases g <;> decide

/-- A bit written is that bit, and every other bit is as before (10_state.md R39). -/
@[simp] theorem testFlag_writeFlag (f g : Flag) (v : Bool) (p : Byte) :
    testFlag g (writeFlag f v p) = if g = f then v else testFlag g p := by
  have hlt : g.index < 8 := by cases g <;> decide
  simp only [testFlag_eq_bit, writeFlag, insertFlag, removeFlag]
  cases v <;> by_cases h : g = f <;>
    simp only [h, if_true, if_false, Bool.false_eq_true, BitVec.getLsbD_or, BitVec.getLsbD_and, BitVec.getLsbD_not,
      Flag.mask_bit] <;> simp [hlt]

theorem testFlag_insertFlag (f g : Flag) (p : Byte) :
    testFlag g (insertFlag f p) = if g = f then true else testFlag g p := by
  simpa [writeFlag] using testFlag_writeFlag f g true p

theorem testFlag_removeFlag (f g : Flag) (p : Byte) :
    testFlag g (removeFlag f p) = if g = f then false else testFlag g p := by
  simpa [writeFlag] using testFlag_writeFlag f g false p

/-- P is its eight bits. -/
theorem eq_of_testFlag {p q : Byte} (h : ∀ f, testFlag f p = testFlag f q) : p = q := by
  have bit : ∀ f : Flag, p.getLsbD f.index = q.getLsbD f.index := fun f => by
    simpa only [testFlag_eq_bit] using h f
  apply BitVec.eq_of_getLsbD_eq
  intro i hi
  have : i = 0 ∨ i = 1 ∨ i = 2 ∨ i = 3 ∨ i = 4 ∨ i = 5 ∨ i = 6 ∨ i = 7 := by omega
  rcases this with rfl | rfl | rfl | rfl | rfl | rfl | rfl | rfl
  · exact bit .c
  · exact bit .z
  · exact bit .i
  · exact bit .d
  · exact bit .b
  · exact bit .u
  · exact bit .v
  · exact bit .n

/-- `SetZN` writes Z and N and no other bit (43_arith_logic.md R230). -/
@[simp] theorem testFlag_setZN (g : Flag) (v p : Byte) :
    testFlag g (setZN v p) = if g = .n then v.msb else if g = .z then v == 0 else testFlag g p := by
  simp only [setZN, testFlag_writeFlag]

/-- `Add` writes C, V, Z, N and no other bit; the result is the sum mod 256 (43_arith_logic.md R231). -/
theorem testFlag_aluAdd (g : Flag) (a b p : Byte) :
    testFlag g (aluAdd a b p).p =
      if g = .n then (aluAdd a b p).result.msb else if g = .z then (aluAdd a b p).result == 0
      else if g = .v ∨ g = .c then decide (a.toNat + b.toNat + carryIn p > 255) else testFlag g p := by
  cases g <;> simp [aluAdd, aluAddWith, Config.adcVRule]

theorem aluAdd_result (a b p : Byte) :
    (aluAdd a b p).result.toNat = (a.toNat + b.toNat + carryIn p) % 256 := by
  simp [aluAdd, aluAddWith]

/-- `Sub` writes C, Z, N and no other bit; the result is the difference mod 256 (43_arith_logic.md R232). -/
theorem testFlag_aluSub (g : Flag) (a b p : Byte) :
    testFlag g (aluSub a b p).p =
      if g = .n then (aluSub a b p).result.msb else if g = .z then (aluSub a b p).result == 0
      else if g = .c then decide ((a.toNat : Int) - b.toNat - carryIn p < 0) else testFlag g p := by
  cases g <;> simp [aluSub, aluSubWith, Config.sbcVRule]

theorem aluSub_result (a b p : Byte) :
    ((aluSub a b p).result.toNat : Int) = ((a.toNat : Int) - b.toNat - carryIn p) % 256 := by
  simp [aluSub, aluSubWith, BitVec.toNat_ofInt]
  omega

/-- `Compare` writes C, Z, N and no other bit (43_arith_logic.md R250). -/
theorem testFlag_aluCompare (g : Flag) (r m p : Byte) :
    testFlag g (aluCompare r m p) =
      if g = .n then (r - m).msb else if g = .z then r == m
      else if g = .c then decide (m.toNat ≤ r.toNat) else testFlag g p := by
  have hsub : (BitVec.ofInt 8 ((r.toNat : Int) - m.toNat)) = r - m := by
    apply BitVec.eq_of_toNat_eq
    have := r.isLt; have := m.isLt
    simp only [BitVec.toNat_ofInt, BitVec.toNat_sub]
    omega
  have hz : (r - m == 0) = (r == m) := by
    rw [Bool.eq_iff_iff, beq_iff_eq, beq_iff_eq]
    constructor
    · intro h
      apply BitVec.eq_of_toNat_eq
      have hn := congrArg BitVec.toNat h
      have := r.isLt; have := m.isLt
      simp only [BitVec.toNat_sub, BitVec.ofNat_eq_ofNat, BitVec.toNat_ofNat] at hn
      omega
    · rintro rfl; simp
  cases g <;> simp [aluCompare, aluCompareWith, Config.cmpCRule, hsub]
  simpa using hz

/-- BIT writes Z, N, V and no other bit (43_arith_logic.md R255). -/
theorem testFlag_aluBit (g : Flag) (a m p : Byte) :
    testFlag g (aluBit a m p) =
      if g = .v then m.getLsbD 6 else if g = .n then m.msb else if g = .z then (a &&& m) == 0 else testFlag g p := by
  simp only [aluBit, testFlag_writeFlag]

/-- `Shl` writes C, Z, N and no other bit (44_shift_rotate.md R280). -/
theorem testFlag_aluShl (g : Flag) (a p : Byte) :
    testFlag g (aluShl a p).p =
      if g = .n then (aluShl a p).result.msb else if g = .z then (aluShl a p).result == 0
      else if g = .c then a.getLsbD 7 else testFlag g p := by
  cases g <;> simp [aluShl]

/-- `Shr` writes C, Z, N and no other bit (44_shift_rotate.md R281). -/
theorem testFlag_aluShr (g : Flag) (a p : Byte) :
    testFlag g (aluShr a p).p =
      if g = .n then (aluShr a p).result.msb else if g = .z then (aluShr a p).result == 0
      else if g = .c then a.getLsbD 0 else testFlag g p := by
  cases g <;> simp [aluShr]

/-- `Rol` writes C, Z, N and no other bit (44_shift_rotate.md R282). -/
theorem testFlag_aluRol (g : Flag) (a p : Byte) :
    testFlag g (aluRol a p).p =
      if g = .n then (aluRol a p).result.msb else if g = .z then (aluRol a p).result == 0
      else if g = .c then a.getLsbD 7 else testFlag g p := by
  cases g <;> simp [aluRol]

/-- `Ror` writes C, Z, N and no other bit (44_shift_rotate.md R283). -/
theorem testFlag_aluRor (g : Flag) (a p : Byte) :
    testFlag g (aluRor a p).p =
      if g = .n then (aluRor a p).result.msb else if g = .z then (aluRor a p).result == 0
      else if g = .c then a.getLsbD 0 else testFlag g p := by
  cases g <;> simp [aluRor]

/-- `PullFlags` takes every bit but B from the pulled byte (42_stack.md R205). -/
theorem testFlag_restoredP (g : Flag) (pulled p : Byte) :
    testFlag g (restoredP pulled p) = if g = .b then testFlag .b p else testFlag g pulled := by
  simp only [restoredP, testFlag_writeFlag]

end Sys2Proof.Machine
end

