-- ==== Sys2Proof/Laws/Memory.lean ====
section
/-! SUPPORT. The laws of memory: read after write, reads elsewhere, and the canonical form kept by every operation. -/

namespace Sys2Proof.Machine

theorem Memory.read_nil (addr : Word) : Memory.read [] addr = 0 := rfl

/-- A read elsewhere does not see a cell. -/
theorem Memory.read_cell_append_other {addr other : Word} (h : other ≠ addr) (v : Byte) (rest : Memory) :
    Memory.read (Memory.cell addr v ++ rest) other = Memory.read rest other := by
  have hn : addr.toNat ≠ other.toNat := fun e => h (BitVec.eq_of_toNat_eq e.symm)
  unfold Memory.cell
  split <;> simp [Memory.read, hn]

/-- A write leaves every other address alone, whatever the form of the list (20_memory.md R72). -/
theorem Memory.read_write_other {addr other : Word} (h : other ≠ addr) (v : Byte) (m : Memory) :
    (m.write addr v).read other = m.read other := by
  have hn : addr.toNat ≠ other.toNat := fun e => h (BitVec.eq_of_toNat_eq e.symm)
  induction m with
  | nil => simpa [Memory.write] using Memory.read_cell_append_other h v []
  | cons kw rest ih =>
    obtain ⟨k, w⟩ := kw
    simp only [Memory.write]
    split
    · exact Memory.read_cell_append_other h v _
    · split
      · rename_i hk
        rw [Memory.read_cell_append_other h]
        simp [Memory.read, ← hk, hn]
      · simp only [Memory.read, ih]

/-- Below the first possible address a canonical memory lists nothing. -/
theorem Memory.read_below {lo : Nat} {m : Memory} (hwf : Memory.wfFrom lo m = true) {addr : Word}
    (h : addr.toNat < lo) : m.read addr = 0 := by
  induction m generalizing lo with
  | nil => rfl
  | cons kw rest ih =>
    obtain ⟨k, w⟩ := kw
    simp only [Memory.wfFrom, Bool.and_eq_true, decide_eq_true_eq] at hwf
    have hk : k ≠ addr.toNat := by omega
    simp only [Memory.read, hk, if_false]
    exact ih hwf.2 (by omega)

/-- A canonical memory is canonical from any earlier address. -/
theorem Memory.wfFrom_mono {lo lo' : Nat} (h : lo' ≤ lo) {m : Memory} (hwf : Memory.wfFrom lo m = true) :
    Memory.wfFrom lo' m = true := by
  cases m with
  | nil => rfl
  | cons kw rest =>
    simp only [Memory.wfFrom, Bool.and_eq_true, decide_eq_true_eq] at hwf ⊢
    exact ⟨⟨⟨by omega, hwf.1.1.2⟩, hwf.1.2⟩, hwf.2⟩

/-- A cell before a canonical memory is canonical. -/
theorem Memory.wfFrom_cell_append {lo : Nat} {addr : Word} (h : lo ≤ addr.toNat) (v : Byte) {rest : Memory}
    (hr : Memory.wfFrom (addr.toNat + 1) rest = true) : Memory.wfFrom lo (Memory.cell addr v ++ rest) = true := by
  unfold Memory.cell
  split
  · exact Memory.wfFrom_mono (by omega) hr
  · rename_i hv
    have := addr.isLt
    simp only [List.singleton_append, Memory.wfFrom, Bool.and_eq_true, decide_eq_true_eq, bne_iff_ne, ne_eq]
    exact ⟨⟨⟨h, by omega⟩, hv⟩, hr⟩

theorem Memory.wfFrom_write {lo : Nat} {m : Memory} (hwf : Memory.wfFrom lo m = true) {addr : Word}
    (h : lo ≤ addr.toNat) (v : Byte) : Memory.wfFrom lo (m.write addr v) = true := by
  induction m generalizing lo with
  | nil => simpa [Memory.write] using Memory.wfFrom_cell_append h v (rest := []) rfl
  | cons kw rest ih =>
    obtain ⟨k, w⟩ := kw
    have hwf' := hwf
    simp only [Memory.wfFrom, Bool.and_eq_true, decide_eq_true_eq] at hwf
    simp only [Memory.write]
    split
    · refine Memory.wfFrom_cell_append h v ?_
      simp only [Memory.wfFrom, Bool.and_eq_true, decide_eq_true_eq]
      exact ⟨⟨⟨by omega, hwf.1.1.2⟩, hwf.1.2⟩, hwf.2⟩
    · split
      · rename_i hk
        exact Memory.wfFrom_cell_append h v (hk ▸ hwf.2)
      · simp only [Memory.wfFrom, Bool.and_eq_true, decide_eq_true_eq]
        exact ⟨⟨⟨hwf.1.1.1, hwf.1.1.2⟩, hwf.1.2⟩, ih hwf.2 (by omega)⟩

/-- A write keeps the canonical form. -/
theorem Memory.write_wf {m : Memory} (hwf : m.wf = true) (addr : Word) (v : Byte) : (m.write addr v).wf = true :=
  Memory.wfFrom_write hwf (Nat.zero_le _) v

/-- A cell reads as its byte, before a memory with nothing at or below its address. -/
theorem Memory.read_cell_append_same {addr : Word} (v : Byte) {rest : Memory}
    (hr : Memory.wfFrom (addr.toNat + 1) rest = true) : Memory.read (Memory.cell addr v ++ rest) addr = v := by
  unfold Memory.cell
  split
  · rename_i hv
    simpa [hv] using Memory.read_below hr (by omega)
  · simp [Memory.read]

theorem Memory.read_write_same_from {lo : Nat} {m : Memory} (hwf : Memory.wfFrom lo m = true) (addr : Word) (v : Byte) :
    (m.write addr v).read addr = v := by
  induction m generalizing lo with
  | nil => simpa [Memory.write] using Memory.read_cell_append_same v (addr := addr) (rest := []) rfl
  | cons kw rest ih =>
    obtain ⟨k, w⟩ := kw
    have hwf' := hwf
    simp only [Memory.wfFrom, Bool.and_eq_true, decide_eq_true_eq] at hwf
    simp only [Memory.write]
    split
    · refine Memory.read_cell_append_same v ?_
      simp only [Memory.wfFrom, Bool.and_eq_true, decide_eq_true_eq]
      exact ⟨⟨⟨by omega, hwf.1.1.2⟩, hwf.1.2⟩, hwf.2⟩
    · split
      · rename_i hk
        exact Memory.read_cell_append_same v (hk ▸ hwf.2)
      · rename_i h1 h2
        have hk : k ≠ addr.toNat := fun e => h2 e.symm
        simp only [Memory.read, hk, if_false]
        exact ih hwf.2

/-- A write is read back, in a canonical memory (20_memory.md R72). -/
theorem Memory.read_write_same {m : Memory} (hwf : m.wf = true) (addr : Word) (v : Byte) :
    (m.write addr v).read addr = v := Memory.read_write_same_from hwf addr v

/-- The memory of the reset state is canonical. -/
theorem reset_mem_wf : State.reset.mem.wf = true := by decide

@[simp] theorem State.read_setMem (s : State) (m : Memory) (addr : Word) : (s.setMem m).read addr = m.read addr := rfl

theorem State.read_write_same {s : State} (hwf : s.mem.wf = true) (addr : Word) (v : Byte) :
    (s.write addr v).read addr = v := Memory.read_write_same hwf addr v

theorem State.read_write_other (s : State) {addr other : Word} (h : other ≠ addr) (v : Byte) :
    (s.write addr v).read other = s.read other := Memory.read_write_other h v s.mem

end Sys2Proof.Machine
end

