-- ==== Sys2Proof/Laws/Ops.lean ====
section
/-! SUPPORT. What each shared operation can do, said once: fetch, the stack controller, the trap and its return, the
operand accesses. -/

namespace Sys2Proof.Machine

@[simp] theorem fetch_fst (s : State) : (fetch s).1 = s.read s.pc := rfl
@[simp] theorem fetch_snd (s : State) : (fetch s).2 = s.setPc (s.pc + 1) := rfl

@[simp] theorem Attempt.andThen_done {α β : Type} (v : α) (s : State) (k : α → State → Attempt β) :
    (Attempt.done v s).andThen k = k v s := rfl
@[simp] theorem Attempt.andThen_raised {α β : Type} (f : Fault) (s : State) (k : α → State → Attempt β) :
    (Attempt.raised f s : Attempt α).andThen k = .raised f s := rfl
@[simp] theorem Attempt.finish_done (v : Unit) (s : State) : (Attempt.done v s).finish = s := rfl
@[simp] theorem Attempt.finish_raised (f : Fault) (s : State) :
    (Attempt.raised f s : Attempt Unit).finish = raiseFault f s := rfl

/-- A push that faults writes nothing and moves nothing (42_stack.md R200). -/
theorem push_overflow {s : State} (h : s.sp = 0x00) (v : Byte) : push v s = .raised .stackOverflow s := by
  simp [push, h]

/-- A push that does not fault writes the slot and moves SP down (42_stack.md R200). -/
theorem push_done {s : State} (h : s.sp ≠ 0x00) (v : Byte) :
    push v s = .done () ((s.write (stackSlot s.sp) v).setSp (s.sp - 1)) := by
  unfold push
  rw [if_neg h]

/-- A pull that faults reads nothing and moves nothing (42_stack.md R201). -/
theorem pull_underflow {s : State} (h : s.sp = 0xFF) : pull s = .raised .stackUnderflow s := by
  simp [pull, h]

/-- A pull that does not fault moves SP up and reads the slot (42_stack.md R201). -/
theorem pull_done {s : State} (h : s.sp ≠ 0xFF) :
    pull s = .done (s.read (stackSlot (s.sp + 1))) (s.setSp (s.sp + 1)) := by
  unfold pull
  rw [if_neg h]

/-- The stack page's slots, as numbers (10_state.md R35). -/
theorem stackSlot_toNat (sp : Byte) : (stackSlot sp).toNat = 256 + sp.toNat := by
  have := sp.isLt
  simp [stackSlot, Config.stackPage, zext16]
  omega

theorem stackSlot_inj {a b : Byte} (h : stackSlot a = stackSlot b) : a = b := by
  have := congrArg BitVec.toNat h
  rw [stackSlot_toNat, stackSlot_toNat] at this
  exact BitVec.eq_of_toNat_eq (by omega)

/-- The low byte of an extended byte is the byte. -/
@[simp] theorem loByte_zext16 (b : Byte) : loByte (zext16 b) = b := by
  apply BitVec.eq_of_toNat_eq
  have := b.isLt
  simp only [loByte, zext16, BitVec.extractLsb'_toNat, BitVec.toNat_setWidth, Nat.shiftRight_zero]
  omega

/-- The value of a two-byte word. -/
theorem concat_toNat (hi lo : Byte) : (concat hi lo).toNat = hi.toNat * 256 + lo.toNat := by
  have := lo.isLt
  simp only [concat, BitVec.toNat_append]
  rw [← Nat.shiftLeft_add_eq_or_of_lt this, Nat.shiftLeft_eq]

theorem hiByte_toNat (w : Word) : (hiByte w).toNat = w.toNat / 256 := by
  have := w.isLt
  simp only [hiByte, BitVec.extractLsb'_toNat, Nat.shiftRight_eq_div_pow]
  omega

theorem loByte_toNat (w : Word) : (loByte w).toNat = w.toNat % 256 := by
  simp only [loByte, BitVec.extractLsb'_toNat, Nat.shiftRight_zero]

/-- The two halves of a word put together again. -/
@[simp] theorem concat_hi_lo (w : Word) : concat (hiByte w) (loByte w) = w := by
  apply BitVec.eq_of_toNat_eq
  rw [concat_toNat, hiByte_toNat, loByte_toNat]
  omega

/-- `P` of the state an attempt ends in, whether it is done or a fault was raised. -/
def Attempt.All {α : Type} (P : State → Prop) : Attempt α → Prop
  | .done _ s => P s
  | .raised _ s => P s

theorem Attempt.andThen_all {α β : Type} {P : State → Prop} {t : Attempt α} {k : α → State → Attempt β}
    (ht : t.All P) (hk : ∀ v s, P s → (k v s).All P) : (t.andThen k).All P := by
  cases t with
  | done v s => exact hk v s ht
  | raised f s => exact ht

theorem Attempt.finish_all {P : State → Prop} {t : Attempt Unit} (ht : t.All P)
    (hraise : ∀ f s, P s → P (raiseFault f s)) : P t.finish := by
  cases t with
  | done v s => exact ht
  | raised f s => exact hraise f s ht

/-- A push keeps whatever a memory write and a move of SP keep. -/
theorem push_all {P : State → Prop} {s : State} (hs : P s)
    (hw : ∀ addr v, P (s.write addr v)) (hsp : ∀ t v, P t → P (t.setSp v)) (v : Byte) : (push v s).All P := by
  unfold push
  split
  · exact hs
  · exact hsp _ _ (hw _ _)

theorem pull_all {P : State → Prop} {s : State} (hs : P s) (hsp : ∀ t v, P t → P (t.setSp v)) : (pull s).All P := by
  unfold pull
  split
  · exact hs
  · exact hsp _ _ hs

/-- A property kept by every register write, memory write and change of the engine. -/
structure Kept (P : State → Prop) : Prop where
  write : ∀ s addr v, P s → P (s.write addr v)
  setSp : ∀ s v, P s → P (s.setSp v)
  setPc : ∀ s v, P s → P (s.setPc v)
  setP : ∀ s v, P s → P (s.setP v)
  setEngine : ∀ s v, P s → P (s.setEngine v)

theorem pushPc_kept {P : State → Prop} (k : Kept P) {s : State} (hs : P s) (off : Word) : (pushPc off s).All P :=
  Attempt.andThen_all (push_all hs (fun _ _ => k.write _ _ _ hs) (fun t v => k.setSp t v) _)
    fun _ _ h1 => push_all h1 (fun _ _ => k.write _ _ _ h1) (fun t v => k.setSp t v) _

theorem pullPc_kept {P : State → Prop} (k : Kept P) {s : State} (hs : P s) (off : Word) : (pullPc off s).All P :=
  Attempt.andThen_all (pull_all hs fun t v => k.setSp t v) fun _ _ h1 =>
    Attempt.andThen_all (pull_all h1 fun t v => k.setSp t v) fun _ _ h2 => k.setPc _ _ h2

theorem pushFlags_kept {P : State → Prop} (k : Kept P) {s : State} (hs : P s) : (pushFlags s).All P :=
  push_all hs (fun _ _ => k.write _ _ _ hs) (fun t v => k.setSp t v) _

theorem pullFlags_kept {P : State → Prop} (k : Kept P) {s : State} (hs : P s) : (pullFlags s).All P :=
  Attempt.andThen_all (pull_all hs fun t v => k.setSp t v) fun _ _ h1 => k.setP _ _ h1

/-- Taking the trap keeps what the operations it is made of keep. -/
theorem takeTrap_kept {P : State → Prop} (k : Kept P) {s : State} (hs : P s) : P (takeTrap s) :=
  Attempt.finish_all
    (Attempt.andThen_all (pushPc_kept k hs 1) fun _ _ h1 =>
      Attempt.andThen_all (pushFlags_kept k h1) fun _ _ h2 => k.setEngine _ _ (k.setPc _ _ h2))
    fun f s h => k.setEngine s (.faulted f) h

/-- Returning from the trap keeps what the operations it is made of keep. -/
theorem returnFromTrap_kept {P : State → Prop} (k : Kept P) {s : State} (hs : P s) : P (returnFromTrap s) :=
  Attempt.finish_all (Attempt.andThen_all (pullFlags_kept k hs) fun _ _ h1 => pullPc_kept k h1 0)
    fun f s h => k.setEngine s (.faulted f) h

/-- The canonical form of memory is kept by every operation on the state (20_memory.md R72). -/
theorem mem_wf_kept : Kept (fun s => s.mem.wf = true) where
  write _ addr v h := Memory.write_wf h addr v
  setSp _ _ h := h
  setPc _ _ h := h
  setP _ _ h := h
  setEngine _ _ h := h

theorem push_mem_wf {s : State} (h : s.mem.wf = true) (v : Byte) : (push v s).All (fun t => t.mem.wf = true) :=
  push_all h (fun _ _ => Memory.write_wf h _ _) (fun _ _ h => h) v

theorem pull_mem_wf {s : State} (h : s.mem.wf = true) : (pull s).All (fun t => t.mem.wf = true) :=
  pull_all h fun _ _ h => h

/-- Writing an operand keeps the canonical form. -/
theorem writeOperand_mem_wf {s : State} (h : s.mem.wf = true) (d : Dest) (v : Byte) :
    (writeOperand d v s).mem.wf = true := by
  cases d with
  | accumulator => exact h
  | mem m => exact Memory.write_wf h _ _

/-- Writing an operand in Accumulator mode writes A (40_addressing.md R159). -/
@[simp] theorem writeOperand_accumulator (v : Byte) (s : State) : writeOperand .accumulator v s = s.setA v := rfl

/-- Writing an operand in memory writes the byte at its effective address (40_addressing.md R159). -/
@[simp] theorem writeOperand_mem (m : MemOperand) (v : Byte) (s : State) :
    writeOperand (.mem m) v s = s.write (ea m s) v := rfl

/-- Effective addresses depend on X, Y, PC and memory only (40_addressing.md R140). -/
theorem ea_congr {s t : State} (hx : s.x = t.x) (hy : s.y = t.y) (hpc : s.pc = t.pc) (hm : s.mem = t.mem)
    (m : MemOperand) : ea m s = ea m t := by
  cases m <;> simp [ea, zpRead16, zpRead16With, State.read16, State.read, hx, hy, hpc, hm]

@[simp] theorem ea_setP (m : MemOperand) (s : State) (v : Byte) : ea m (s.setP v) = ea m s :=
  ea_congr rfl rfl rfl rfl m

@[simp] theorem ea_setA (m : MemOperand) (s : State) (v : Byte) : ea m (s.setA v) = ea m s :=
  ea_congr rfl rfl rfl rfl m

theorem stackSlot_ne {a b : Byte} (h : a ≠ b) : stackSlot a ≠ stackSlot b := fun e => h (stackSlot_inj e)

/-- A word pushed in full: the high byte at the slot, the low byte below it (42_stack.md R202). -/
theorem pushPc_done {s : State} (h : 2 ≤ s.sp.toNat) (off : Word) :
    pushPc off s = .done () (((s.write (stackSlot s.sp) (hiByte (s.pc + off))).write (stackSlot (s.sp - 1))
      (loByte (s.pc + off))).setSp (s.sp - 2)) := by
  have h1 : s.sp ≠ 0 := by intro e; rw [e] at h; simp at h
  have h2 : s.sp - 1 ≠ 0 := by bv_omega
  unfold pushPc
  rw [push_done h1, Attempt.andThen_done, push_done (by exact h2)]
  simp only [State.setSp_sp]
  rw [show s.sp - 1 - 1 = s.sp - 2 by bv_omega]
  rfl

/-- A word pulled in full: the low byte above SP, the high byte above that (42_stack.md R203). -/
theorem pullPc_done {s : State} (h : s.sp.toNat ≤ 0xFD) (off : Word) :
    pullPc off s = .done () ((s.setSp (s.sp + 2)).setPc
      (concat (s.read (stackSlot (s.sp + 2))) (s.read (stackSlot (s.sp + 1))) + off)) := by
  have h1 : s.sp ≠ 0xFF := by intro e; rw [e] at h; simp at h
  have h2 : s.sp + 1 ≠ 0xFF := by bv_omega
  unfold pullPc
  rw [pull_done h1, Attempt.andThen_done, pull_done (by exact h2)]
  simp only [State.setSp_sp, Attempt.andThen_done]
  rw [show s.sp + 1 + 1 = s.sp + 2 by bv_omega]
  rfl

/-- The memory with the trap's three bytes pushed (46_system_flags.md R330). -/
def trapFrame (s : State) : Memory :=
  ((s.mem.write (stackSlot s.sp) (hiByte (s.pc + 1))).write (stackSlot (s.sp - 1)) (loByte (s.pc + 1))).write
    (stackSlot (s.sp - 2)) (insertFlag .b s.p)

/-- The trap taken in full (60_exceptions.md R370). -/
theorem takeTrap_done {s : State} (h : 3 ≤ s.sp.toNat) :
    takeTrap s = { s with mem := trapFrame s, sp := s.sp - 3, engine := .suspended
                          pc := concat ((trapFrame s).read 0xFFFF) ((trapFrame s).read 0xFFFE) } := by
  have h2 : s.sp - 2 ≠ 0 := by bv_omega
  unfold takeTrap
  rw [pushPc_done (by omega), Attempt.andThen_done]
  simp only [pushFlags, State.setSp_p]
  rw [push_done (by exact h2)]
  simp only [Attempt.andThen_done, Attempt.finish_done, State.setSp_sp]
  rw [show s.sp - 2 - 1 = s.sp - 3 by bv_omega]
  rfl

/-- The return from the trap in full (60_exceptions.md R371). -/
theorem returnFromTrap_done {s : State} (h : s.sp.toNat ≤ 0xFC) :
    returnFromTrap s =
      { s with p := restoredP (s.read (stackSlot (s.sp + 1))) s.p, sp := s.sp + 3
               pc := concat (s.read (stackSlot (s.sp + 3))) (s.read (stackSlot (s.sp + 2))) } := by
  have h1 : s.sp ≠ 0xFF := by intro e; rw [e] at h; simp at h
  unfold returnFromTrap pullFlags
  rw [pull_done h1]
  simp only [Attempt.andThen_done]
  rw [pullPc_done (by simp; bv_omega)]
  simp only [Attempt.finish_done, State.setSp_sp, State.setP_sp]
  rw [show s.sp + 1 + 1 = s.sp + 2 by bv_omega, show s.sp + 1 + 2 = s.sp + 3 by bv_omega]
  simp [State.setPc, State.setSp, State.setP, State.read]

end Sys2Proof.Machine
end

