-- ==== Sys2Proof/Laws/ControlPort.lean ====
section
/-! SUPPORT. What the control port keeps. -/

namespace Sys2Proof.Machine

/-- Storing a row of bytes keeps the canonical form. -/
theorem storeBytes_wf (img : List Byte) : ∀ (base : Nat) {m : Memory}, m.wf = true → (storeBytes base img m).wf = true := by
  induction img with
  | nil => intro _ _ h; exact h
  | cons v rest ih => intro _ _ h; exact ih _ (Memory.write_wf h _ _)

/-- Writing a register by its key leaves memory and the engine alone. -/
@[simp] theorem State.setReg_mem (s : State) (k : RegKey) (v : Nat) : (s.setReg k v).mem = s.mem := by
  cases k <;> rfl

@[simp] theorem State.setReg_engine (s : State) (k : RegKey) (v : Nat) : (s.setReg k v).engine = s.engine := by
  cases k <;> rfl

/-- While the engine is Running a call of run is refused (20_memory.md R89). -/
theorem run_running (sb : Registers → Memory → Bool) (k : Nat) {s : State} (h : s.engine = .running) :
    run sb k s = .error (.refusedIn .running) := by simp [run, h]

/-- Elsewhere a call of run is the loop of 60_exceptions.md R380. -/
theorem run_of_not_running (sb : Registers → Memory → Bool) (k : Nat) {s : State} (h : s.engine ≠ .running) :
    run sb k s = .ok (runLoop sb k s) := if_neg h

/-- While the engine is Running status is refused (20_memory.md R89). -/
theorem State.status_running {s : State} (h : s.engine = .running) : s.status = .error (.refusedIn .running) := by
  simp [State.status, EngineState.hostReads, h]

/-- Elsewhere status is the engine state, with the fault after one (00_scope.md R7). -/
theorem State.status_of_not_running {s : State} (h : s.engine ≠ .running) : s.status = .ok s.engine := by
  unfold State.status EngineState.hostReads
  split <;> simp_all

/-- The loop after a step that faulted, a step that suspended, and any other (60_exceptions.md R380). -/
theorem runLoop_succ (sb : Registers → Memory → Bool) (k : Nat) {s t : State} (h : step s = .next t) :
    runLoop sb (k + 1) s =
      match t.engine with
      | .faulted f => .faulted f t
      | .suspended => if sb t.registers t.mem then .suspended t else runLoop sb k t
      | .idle | .running => runLoop sb k t := by
  cases e : t.engine <;> simp [runLoop, h, e]

/-- The reset state is what `start` makes of a created engine with nothing in memory and every register zero
(70_reset_and_hazards.md R404). -/
theorem reset_is_started : start (State.created ⟨0, 0, 0, 0, 0, 0⟩) = .ok State.reset := by rfl

end Sys2Proof.Machine
end

