-- ==== Sys2Proof/Laws/PerInstr.lean ====
section
/-! SUPPORT. Facts about every instruction as syntax, one lemma per constructor. Family Wf: each instruction is well
formed, its opcode byte is its mnemonic's and mode's in the table of 30_encoding.md R113, and its encoding has the
length its mode says. -/

/-- The instruction is well formed, its record's opcode byte is the one R113 gives the pair, and its bytes are as many
as its mode says (30_encoding.md R101, R110). -/
def Sys2Proof.Laws.Wf.Statement (i : Sys2Proof.Instr) : Prop :=
  i.wellFormed = true ∧ i.record.opcodeMatches = true ∧ (Sys2Proof.encode i).length = i.length

namespace Sys2Proof.Laws.Wf

theorem byte_fits (b : Byte) (n : Nat) (h : 1 ≤ n) : (zext16 b).toNat < 256 ^ n := by
  have : b.toNat < 256 := b.isLt
  have hn : 256 ^ 1 ≤ 256 ^ n := Nat.pow_le_pow_right (by decide) h
  simp only [zext16, BitVec.toNat_setWidth]
  omega

theorem word_fits (w : Word) (n : Nat) (h : 2 ≤ n) : w.toNat < 256 ^ n := by
  have : w.toNat < 65536 := w.isLt
  have hn : 256 ^ 2 ≤ 256 ^ n := Nat.pow_le_pow_right (by decide) h
  omega

/-- The three parts of the statement from the operand's fit; the rest is the instruction's own shape. -/
theorem of_fits {i : Instr} (hm : i.mnemonic.modes.contains i.mode = true)
    (hf : i.operand.value.toNat < 256 ^ i.mode.operandBytes) (ho : i.record.opcodeMatches = true)
    (hl : (encode i).length = i.length) : Statement i :=
  ⟨by simp only [Instr.wellFormed, hm, Bool.true_and, decide_eq_true_eq]; exact hf, ho, hl⟩

theorem ldaImm (v : Byte) : Statement (.ldaImm v) := of_fits rfl (byte_fits v 1 (by decide)) rfl rfl
theorem ldaZp (zp : Byte) : Statement (.ldaZp zp) := of_fits rfl (byte_fits zp 1 (by decide)) rfl rfl
theorem ldaZpX (zp : Byte) : Statement (.ldaZpX zp) := of_fits rfl (byte_fits zp 1 (by decide)) rfl rfl
theorem ldaAbs (addr : Word) : Statement (.ldaAbs addr) := of_fits rfl (word_fits addr 2 (by decide)) rfl rfl
theorem ldaAbsX (base : Word) : Statement (.ldaAbsX base) := of_fits rfl (word_fits base 2 (by decide)) rfl rfl
theorem ldaAbsY (base : Word) : Statement (.ldaAbsY base) := of_fits rfl (word_fits base 2 (by decide)) rfl rfl
theorem ldaIndX (zp : Byte) : Statement (.ldaIndX zp) := of_fits rfl (byte_fits zp 1 (by decide)) rfl rfl
theorem ldaIndY (zp : Byte) : Statement (.ldaIndY zp) := of_fits rfl (byte_fits zp 1 (by decide)) rfl rfl
theorem ldxImm (v : Byte) : Statement (.ldxImm v) := of_fits rfl (byte_fits v 1 (by decide)) rfl rfl
theorem ldxZp (zp : Byte) : Statement (.ldxZp zp) := of_fits rfl (byte_fits zp 1 (by decide)) rfl rfl
theorem ldxZpY (zp : Byte) : Statement (.ldxZpY zp) := of_fits rfl (byte_fits zp 1 (by decide)) rfl rfl
theorem ldxAbs (addr : Word) : Statement (.ldxAbs addr) := of_fits rfl (word_fits addr 2 (by decide)) rfl rfl
theorem ldxAbsY (base : Word) : Statement (.ldxAbsY base) := of_fits rfl (word_fits base 2 (by decide)) rfl rfl
theorem ldyImm (v : Byte) : Statement (.ldyImm v) := of_fits rfl (byte_fits v 1 (by decide)) rfl rfl
theorem ldyZp (zp : Byte) : Statement (.ldyZp zp) := of_fits rfl (byte_fits zp 1 (by decide)) rfl rfl
theorem ldyZpX (zp : Byte) : Statement (.ldyZpX zp) := of_fits rfl (byte_fits zp 1 (by decide)) rfl rfl
theorem ldyAbs (addr : Word) : Statement (.ldyAbs addr) := of_fits rfl (word_fits addr 2 (by decide)) rfl rfl
theorem ldyAbsX (base : Word) : Statement (.ldyAbsX base) := of_fits rfl (word_fits base 2 (by decide)) rfl rfl
theorem staZp (zp : Byte) : Statement (.staZp zp) := of_fits rfl (byte_fits zp 1 (by decide)) rfl rfl
theorem staZpX (zp : Byte) : Statement (.staZpX zp) := of_fits rfl (byte_fits zp 1 (by decide)) rfl rfl
theorem staAbs (addr : Word) : Statement (.staAbs addr) := of_fits rfl (word_fits addr 2 (by decide)) rfl rfl
theorem staAbsX (base : Word) : Statement (.staAbsX base) := of_fits rfl (word_fits base 2 (by decide)) rfl rfl
theorem staAbsY (base : Word) : Statement (.staAbsY base) := of_fits rfl (word_fits base 2 (by decide)) rfl rfl
theorem staIndX (zp : Byte) : Statement (.staIndX zp) := of_fits rfl (byte_fits zp 1 (by decide)) rfl rfl
theorem staIndY (zp : Byte) : Statement (.staIndY zp) := of_fits rfl (byte_fits zp 1 (by decide)) rfl rfl
theorem stxZp (zp : Byte) : Statement (.stxZp zp) := of_fits rfl (byte_fits zp 1 (by decide)) rfl rfl
theorem stxZpY (zp : Byte) : Statement (.stxZpY zp) := of_fits rfl (byte_fits zp 1 (by decide)) rfl rfl
theorem stxAbs (addr : Word) : Statement (.stxAbs addr) := of_fits rfl (word_fits addr 2 (by decide)) rfl rfl
theorem styZp (zp : Byte) : Statement (.styZp zp) := of_fits rfl (byte_fits zp 1 (by decide)) rfl rfl
theorem styZpX (zp : Byte) : Statement (.styZpX zp) := of_fits rfl (byte_fits zp 1 (by decide)) rfl rfl
theorem styAbs (addr : Word) : Statement (.styAbs addr) := of_fits rfl (word_fits addr 2 (by decide)) rfl rfl
theorem tax : Statement (.tax) := of_fits rfl (by decide) rfl rfl
theorem tay : Statement (.tay) := of_fits rfl (by decide) rfl rfl
theorem txa : Statement (.txa) := of_fits rfl (by decide) rfl rfl
theorem tya : Statement (.tya) := of_fits rfl (by decide) rfl rfl
theorem tsx : Statement (.tsx) := of_fits rfl (by decide) rfl rfl
theorem txs : Statement (.txs) := of_fits rfl (by decide) rfl rfl
theorem pha : Statement (.pha) := of_fits rfl (by decide) rfl rfl
theorem php : Statement (.php) := of_fits rfl (by decide) rfl rfl
theorem pla : Statement (.pla) := of_fits rfl (by decide) rfl rfl
theorem plp : Statement (.plp) := of_fits rfl (by decide) rfl rfl
theorem adcImm (v : Byte) : Statement (.adcImm v) := of_fits rfl (byte_fits v 1 (by decide)) rfl rfl
theorem adcZp (zp : Byte) : Statement (.adcZp zp) := of_fits rfl (byte_fits zp 1 (by decide)) rfl rfl
theorem adcZpX (zp : Byte) : Statement (.adcZpX zp) := of_fits rfl (byte_fits zp 1 (by decide)) rfl rfl
theorem adcAbs (addr : Word) : Statement (.adcAbs addr) := of_fits rfl (word_fits addr 2 (by decide)) rfl rfl
theorem adcAbsX (base : Word) : Statement (.adcAbsX base) := of_fits rfl (word_fits base 2 (by decide)) rfl rfl
theorem adcAbsY (base : Word) : Statement (.adcAbsY base) := of_fits rfl (word_fits base 2 (by decide)) rfl rfl
theorem adcIndX (zp : Byte) : Statement (.adcIndX zp) := of_fits rfl (byte_fits zp 1 (by decide)) rfl rfl
theorem adcIndY (zp : Byte) : Statement (.adcIndY zp) := of_fits rfl (byte_fits zp 1 (by decide)) rfl rfl
theorem sbcImm (v : Byte) : Statement (.sbcImm v) := of_fits rfl (byte_fits v 1 (by decide)) rfl rfl
theorem sbcZp (zp : Byte) : Statement (.sbcZp zp) := of_fits rfl (byte_fits zp 1 (by decide)) rfl rfl
theorem sbcZpX (zp : Byte) : Statement (.sbcZpX zp) := of_fits rfl (byte_fits zp 1 (by decide)) rfl rfl
theorem sbcAbs (addr : Word) : Statement (.sbcAbs addr) := of_fits rfl (word_fits addr 2 (by decide)) rfl rfl
theorem sbcAbsX (base : Word) : Statement (.sbcAbsX base) := of_fits rfl (word_fits base 2 (by decide)) rfl rfl
theorem sbcAbsY (base : Word) : Statement (.sbcAbsY base) := of_fits rfl (word_fits base 2 (by decide)) rfl rfl
theorem sbcIndX (zp : Byte) : Statement (.sbcIndX zp) := of_fits rfl (byte_fits zp 1 (by decide)) rfl rfl
theorem sbcIndY (zp : Byte) : Statement (.sbcIndY zp) := of_fits rfl (byte_fits zp 1 (by decide)) rfl rfl
theorem andImm (v : Byte) : Statement (.andImm v) := of_fits rfl (byte_fits v 1 (by decide)) rfl rfl
theorem andZp (zp : Byte) : Statement (.andZp zp) := of_fits rfl (byte_fits zp 1 (by decide)) rfl rfl
theorem andZpX (zp : Byte) : Statement (.andZpX zp) := of_fits rfl (byte_fits zp 1 (by decide)) rfl rfl
theorem andAbs (addr : Word) : Statement (.andAbs addr) := of_fits rfl (word_fits addr 2 (by decide)) rfl rfl
theorem andAbsX (base : Word) : Statement (.andAbsX base) := of_fits rfl (word_fits base 2 (by decide)) rfl rfl
theorem andAbsY (base : Word) : Statement (.andAbsY base) := of_fits rfl (word_fits base 2 (by decide)) rfl rfl
theorem andIndX (zp : Byte) : Statement (.andIndX zp) := of_fits rfl (byte_fits zp 1 (by decide)) rfl rfl
theorem andIndY (zp : Byte) : Statement (.andIndY zp) := of_fits rfl (byte_fits zp 1 (by decide)) rfl rfl
theorem oraImm (v : Byte) : Statement (.oraImm v) := of_fits rfl (byte_fits v 1 (by decide)) rfl rfl
theorem oraZp (zp : Byte) : Statement (.oraZp zp) := of_fits rfl (byte_fits zp 1 (by decide)) rfl rfl
theorem oraZpX (zp : Byte) : Statement (.oraZpX zp) := of_fits rfl (byte_fits zp 1 (by decide)) rfl rfl
theorem oraAbs (addr : Word) : Statement (.oraAbs addr) := of_fits rfl (word_fits addr 2 (by decide)) rfl rfl
theorem oraAbsX (base : Word) : Statement (.oraAbsX base) := of_fits rfl (word_fits base 2 (by decide)) rfl rfl
theorem oraAbsY (base : Word) : Statement (.oraAbsY base) := of_fits rfl (word_fits base 2 (by decide)) rfl rfl
theorem oraIndX (zp : Byte) : Statement (.oraIndX zp) := of_fits rfl (byte_fits zp 1 (by decide)) rfl rfl
theorem oraIndY (zp : Byte) : Statement (.oraIndY zp) := of_fits rfl (byte_fits zp 1 (by decide)) rfl rfl
theorem eorImm (v : Byte) : Statement (.eorImm v) := of_fits rfl (byte_fits v 1 (by decide)) rfl rfl
theorem eorZp (zp : Byte) : Statement (.eorZp zp) := of_fits rfl (byte_fits zp 1 (by decide)) rfl rfl
theorem eorZpX (zp : Byte) : Statement (.eorZpX zp) := of_fits rfl (byte_fits zp 1 (by decide)) rfl rfl
theorem eorAbs (addr : Word) : Statement (.eorAbs addr) := of_fits rfl (word_fits addr 2 (by decide)) rfl rfl
theorem eorAbsX (base : Word) : Statement (.eorAbsX base) := of_fits rfl (word_fits base 2 (by decide)) rfl rfl
theorem eorAbsY (base : Word) : Statement (.eorAbsY base) := of_fits rfl (word_fits base 2 (by decide)) rfl rfl
theorem eorIndX (zp : Byte) : Statement (.eorIndX zp) := of_fits rfl (byte_fits zp 1 (by decide)) rfl rfl
theorem eorIndY (zp : Byte) : Statement (.eorIndY zp) := of_fits rfl (byte_fits zp 1 (by decide)) rfl rfl
theorem cmpImm (v : Byte) : Statement (.cmpImm v) := of_fits rfl (byte_fits v 1 (by decide)) rfl rfl
theorem cmpZp (zp : Byte) : Statement (.cmpZp zp) := of_fits rfl (byte_fits zp 1 (by decide)) rfl rfl
theorem cmpZpX (zp : Byte) : Statement (.cmpZpX zp) := of_fits rfl (byte_fits zp 1 (by decide)) rfl rfl
theorem cmpAbs (addr : Word) : Statement (.cmpAbs addr) := of_fits rfl (word_fits addr 2 (by decide)) rfl rfl
theorem cmpAbsX (base : Word) : Statement (.cmpAbsX base) := of_fits rfl (word_fits base 2 (by decide)) rfl rfl
theorem cmpAbsY (base : Word) : Statement (.cmpAbsY base) := of_fits rfl (word_fits base 2 (by decide)) rfl rfl
theorem cmpIndX (zp : Byte) : Statement (.cmpIndX zp) := of_fits rfl (byte_fits zp 1 (by decide)) rfl rfl
theorem cmpIndY (zp : Byte) : Statement (.cmpIndY zp) := of_fits rfl (byte_fits zp 1 (by decide)) rfl rfl
theorem cpxImm (v : Byte) : Statement (.cpxImm v) := of_fits rfl (byte_fits v 1 (by decide)) rfl rfl
theorem cpxZp (zp : Byte) : Statement (.cpxZp zp) := of_fits rfl (byte_fits zp 1 (by decide)) rfl rfl
theorem cpxAbs (addr : Word) : Statement (.cpxAbs addr) := of_fits rfl (word_fits addr 2 (by decide)) rfl rfl
theorem cpyImm (v : Byte) : Statement (.cpyImm v) := of_fits rfl (byte_fits v 1 (by decide)) rfl rfl
theorem cpyZp (zp : Byte) : Statement (.cpyZp zp) := of_fits rfl (byte_fits zp 1 (by decide)) rfl rfl
theorem cpyAbs (addr : Word) : Statement (.cpyAbs addr) := of_fits rfl (word_fits addr 2 (by decide)) rfl rfl
theorem bitZp (zp : Byte) : Statement (.bitZp zp) := of_fits rfl (byte_fits zp 1 (by decide)) rfl rfl
theorem bitAbs (addr : Word) : Statement (.bitAbs addr) := of_fits rfl (word_fits addr 2 (by decide)) rfl rfl
theorem incZp (zp : Byte) : Statement (.incZp zp) := of_fits rfl (byte_fits zp 1 (by decide)) rfl rfl
theorem incZpX (zp : Byte) : Statement (.incZpX zp) := of_fits rfl (byte_fits zp 1 (by decide)) rfl rfl
theorem incAbs (addr : Word) : Statement (.incAbs addr) := of_fits rfl (word_fits addr 2 (by decide)) rfl rfl
theorem incAbsX (base : Word) : Statement (.incAbsX base) := of_fits rfl (word_fits base 2 (by decide)) rfl rfl
theorem decZp (zp : Byte) : Statement (.decZp zp) := of_fits rfl (byte_fits zp 1 (by decide)) rfl rfl
theorem decZpX (zp : Byte) : Statement (.decZpX zp) := of_fits rfl (byte_fits zp 1 (by decide)) rfl rfl
theorem decAbs (addr : Word) : Statement (.decAbs addr) := of_fits rfl (word_fits addr 2 (by decide)) rfl rfl
theorem decAbsX (base : Word) : Statement (.decAbsX base) := of_fits rfl (word_fits base 2 (by decide)) rfl rfl
theorem inx : Statement (.inx) := of_fits rfl (by decide) rfl rfl
theorem iny : Statement (.iny) := of_fits rfl (by decide) rfl rfl
theorem dex : Statement (.dex) := of_fits rfl (by decide) rfl rfl
theorem dey : Statement (.dey) := of_fits rfl (by decide) rfl rfl
theorem aslAcc : Statement (.aslAcc) := of_fits rfl (by decide) rfl rfl
theorem aslZp (zp : Byte) : Statement (.aslZp zp) := of_fits rfl (byte_fits zp 1 (by decide)) rfl rfl
theorem aslZpX (zp : Byte) : Statement (.aslZpX zp) := of_fits rfl (byte_fits zp 1 (by decide)) rfl rfl
theorem aslAbs (addr : Word) : Statement (.aslAbs addr) := of_fits rfl (word_fits addr 2 (by decide)) rfl rfl
theorem aslAbsX (base : Word) : Statement (.aslAbsX base) := of_fits rfl (word_fits base 2 (by decide)) rfl rfl
theorem lsrAcc : Statement (.lsrAcc) := of_fits rfl (by decide) rfl rfl
theorem lsrZp (zp : Byte) : Statement (.lsrZp zp) := of_fits rfl (byte_fits zp 1 (by decide)) rfl rfl
theorem lsrZpX (zp : Byte) : Statement (.lsrZpX zp) := of_fits rfl (byte_fits zp 1 (by decide)) rfl rfl
theorem lsrAbs (addr : Word) : Statement (.lsrAbs addr) := of_fits rfl (word_fits addr 2 (by decide)) rfl rfl
theorem lsrAbsX (base : Word) : Statement (.lsrAbsX base) := of_fits rfl (word_fits base 2 (by decide)) rfl rfl
theorem rolAcc : Statement (.rolAcc) := of_fits rfl (by decide) rfl rfl
theorem rolZp (zp : Byte) : Statement (.rolZp zp) := of_fits rfl (byte_fits zp 1 (by decide)) rfl rfl
theorem rolZpX (zp : Byte) : Statement (.rolZpX zp) := of_fits rfl (byte_fits zp 1 (by decide)) rfl rfl
theorem rolAbs (addr : Word) : Statement (.rolAbs addr) := of_fits rfl (word_fits addr 2 (by decide)) rfl rfl
theorem rolAbsX (base : Word) : Statement (.rolAbsX base) := of_fits rfl (word_fits base 2 (by decide)) rfl rfl
theorem rorAcc : Statement (.rorAcc) := of_fits rfl (by decide) rfl rfl
theorem rorZp (zp : Byte) : Statement (.rorZp zp) := of_fits rfl (byte_fits zp 1 (by decide)) rfl rfl
theorem rorZpX (zp : Byte) : Statement (.rorZpX zp) := of_fits rfl (byte_fits zp 1 (by decide)) rfl rfl
theorem rorAbs (addr : Word) : Statement (.rorAbs addr) := of_fits rfl (word_fits addr 2 (by decide)) rfl rfl
theorem rorAbsX (base : Word) : Statement (.rorAbsX base) := of_fits rfl (word_fits base 2 (by decide)) rfl rfl
theorem jmpAbs (addr : Word) : Statement (.jmpAbs addr) := of_fits rfl (word_fits addr 2 (by decide)) rfl rfl
theorem jmpInd (ptr : Word) : Statement (.jmpInd ptr) := of_fits rfl (word_fits ptr 2 (by decide)) rfl rfl
theorem jsrAbs (addr : Word) : Statement (.jsrAbs addr) := of_fits rfl (word_fits addr 2 (by decide)) rfl rfl
theorem rts : Statement (.rts) := of_fits rfl (by decide) rfl rfl
theorem bcc (disp : Byte) : Statement (.bcc disp) := of_fits rfl (byte_fits disp 1 (by decide)) rfl rfl
theorem bcs (disp : Byte) : Statement (.bcs disp) := of_fits rfl (byte_fits disp 1 (by decide)) rfl rfl
theorem beq (disp : Byte) : Statement (.beq disp) := of_fits rfl (byte_fits disp 1 (by decide)) rfl rfl
theorem bne (disp : Byte) : Statement (.bne disp) := of_fits rfl (byte_fits disp 1 (by decide)) rfl rfl
theorem bmi (disp : Byte) : Statement (.bmi disp) := of_fits rfl (byte_fits disp 1 (by decide)) rfl rfl
theorem bpl (disp : Byte) : Statement (.bpl disp) := of_fits rfl (byte_fits disp 1 (by decide)) rfl rfl
theorem bvc (disp : Byte) : Statement (.bvc disp) := of_fits rfl (byte_fits disp 1 (by decide)) rfl rfl
theorem bvs (disp : Byte) : Statement (.bvs disp) := of_fits rfl (byte_fits disp 1 (by decide)) rfl rfl
theorem brk : Statement (.brk) := of_fits rfl (by decide) rfl rfl
theorem rti : Statement (.rti) := of_fits rfl (by decide) rfl rfl
theorem nop : Statement (.nop) := of_fits rfl (by decide) rfl rfl
theorem clc : Statement (.clc) := of_fits rfl (by decide) rfl rfl
theorem cld : Statement (.cld) := of_fits rfl (by decide) rfl rfl
theorem cli : Statement (.cli) := of_fits rfl (by decide) rfl rfl
theorem clv : Statement (.clv) := of_fits rfl (by decide) rfl rfl
theorem sec : Statement (.sec) := of_fits rfl (by decide) rfl rfl
theorem sed : Statement (.sed) := of_fits rfl (by decide) rfl rfl
theorem sei : Statement (.sei) := of_fits rfl (by decide) rfl rfl

end Sys2Proof.Laws.Wf
end

