-- ==== Sys2Proof/Laws/Decode.lean ====
section
/-! SUPPORT. The laws of the catalog and the byte sources: the catalog's opcodes rise strictly, so a row is what its
opcode byte looks up; every instruction has its row, which assembles the instruction from its operand bytes; and the
bus reads the bytes at PC. -/

namespace Sys2Proof

open Machine

/-- The catalog's opcode bytes rise strictly (30_encoding.md R110: pairwise distinct). -/
theorem catalog_rises : (catalog.map (fun r => r.opcode.toNat)).IsChain (· < ·) := by decide +kernel

theorem find?_of_pairwise {α : Type} (key : α → Nat) (p : α → Bool) {l : List α}
    (hl : (l.map key).Pairwise (· < ·)) {r : α} (hr : r ∈ l) (hp : ∀ x, p x = true ↔ key x = key r) :
    l.find? p = some r := by
  induction l with
  | nil => cases hr
  | cons x rest ih =>
    rw [List.map_cons, List.pairwise_cons] at hl
    rcases List.mem_cons.1 hr with rfl | hr
    · rw [List.find?_cons_of_pos ((hp r).2 rfl)]
    · have hx : p x ≠ true := fun h => by
        have := hl.1 (key r) (List.mem_map_of_mem hr)
        have := (hp x).1 h
        omega
      rw [List.find?_cons_of_neg hx]
      exact ih hl.2 hr

/-- A row of the catalog is what its opcode byte looks up. -/
theorem catalogRow?_of_mem {r : CatalogRow} (hr : r ∈ catalog) : catalogRow? r.opcode = some r := by
  refine find?_of_pairwise (fun r => r.opcode.toNat) _ (List.isChain_iff_pairwise.1 catalog_rises) hr fun x => ?_
  rw [beq_iff_eq]
  exact ⟨fun h => congrArg BitVec.toNat h, fun h => BitVec.eq_of_toNat_eq h⟩

/-- What a byte looks up is a row of the catalog with that opcode byte. -/
theorem mem_of_catalogRow? {b : Byte} {r : CatalogRow} (h : catalogRow? b = some r) : r ∈ catalog ∧ r.opcode = b :=
  ⟨List.mem_of_find?_eq_some h, by simpa using List.find?_some h⟩

/-- The place of an instruction's row in the catalog. -/
def Instr.catalogIndex : Instr → Nat
  | .ldaImm _ => 97
  | .ldaZp _ => 94
  | .ldaZpX _ => 105
  | .ldaAbs _ => 100
  | .ldaAbsX _ => 111
  | .ldaAbsY _ => 108
  | .ldaIndX _ => 91
  | .ldaIndY _ => 103
  | .ldxImm _ => 92
  | .ldxZp _ => 95
  | .ldxZpY _ => 106
  | .ldxAbs _ => 101
  | .ldxAbsY _ => 112
  | .ldyImm _ => 90
  | .ldyZp _ => 93
  | .ldyZpX _ => 104
  | .ldyAbs _ => 99
  | .ldyAbsX _ => 110
  | .staZp _ => 74
  | .staZpX _ => 84
  | .staAbs _ => 79
  | .staAbsX _ => 89
  | .staAbsY _ => 87
  | .staIndX _ => 72
  | .staIndY _ => 82
  | .stxZp _ => 75
  | .stxZpY _ => 85
  | .stxAbs _ => 80
  | .styZp _ => 73
  | .styZpX _ => 83
  | .styAbs _ => 78
  | .tax => 98
  | .tay => 96
  | .txa => 77
  | .tya => 86
  | .tsx => 109
  | .txs => 88
  | .pha => 40
  | .php => 4
  | .pla => 58
  | .plp => 22
  | .adcImm _ => 59
  | .adcZp _ => 56
  | .adcZpX _ => 66
  | .adcAbs _ => 62
  | .adcAbsX _ => 70
  | .adcAbsY _ => 69
  | .adcIndX _ => 55
  | .adcIndY _ => 65
  | .sbcImm _ => 138
  | .sbcZp _ => 135
  | .sbcZpX _ => 145
  | .sbcAbs _ => 141
  | .sbcAbsX _ => 149
  | .sbcAbsY _ => 148
  | .sbcIndX _ => 133
  | .sbcIndY _ => 144
  | .andImm _ => 23
  | .andZp _ => 20
  | .andZpX _ => 30
  | .andAbs _ => 26
  | .andAbsX _ => 34
  | .andAbsY _ => 33
  | .andIndX _ => 18
  | .andIndY _ => 29
  | .oraImm _ => 5
  | .oraZp _ => 2
  | .oraZpX _ => 11
  | .oraAbs _ => 7
  | .oraAbsX _ => 15
  | .oraAbsY _ => 14
  | .oraIndX _ => 1
  | .oraIndY _ => 10
  | .eorImm _ => 41
  | .eorZp _ => 38
  | .eorZpX _ => 48
  | .eorAbs _ => 44
  | .eorAbsX _ => 52
  | .eorAbsY _ => 51
  | .eorIndX _ => 37
  | .eorIndY _ => 47
  | .cmpImm _ => 119
  | .cmpZp _ => 116
  | .cmpZpX _ => 126
  | .cmpAbs _ => 122
  | .cmpAbsX _ => 130
  | .cmpAbsY _ => 129
  | .cmpIndX _ => 114
  | .cmpIndY _ => 125
  | .cpxImm _ => 132
  | .cpxZp _ => 134
  | .cpxAbs _ => 140
  | .cpyImm _ => 113
  | .cpyZp _ => 115
  | .cpyAbs _ => 121
  | .bitZp _ => 19
  | .bitAbs _ => 25
  | .incZp _ => 136
  | .incZpX _ => 146
  | .incAbs _ => 142
  | .incAbsX _ => 150
  | .decZp _ => 117
  | .decZpX _ => 127
  | .decAbs _ => 123
  | .decAbsX _ => 131
  | .inx => 137
  | .iny => 118
  | .dex => 120
  | .dey => 76
  | .aslAcc => 6
  | .aslZp _ => 3
  | .aslZpX _ => 12
  | .aslAbs _ => 8
  | .aslAbsX _ => 16
  | .lsrAcc => 42
  | .lsrZp _ => 39
  | .lsrZpX _ => 49
  | .lsrAbs _ => 45
  | .lsrAbsX _ => 53
  | .rolAcc => 24
  | .rolZp _ => 21
  | .rolZpX _ => 31
  | .rolAbs _ => 27
  | .rolAbsX _ => 35
  | .rorAcc => 60
  | .rorZp _ => 57
  | .rorZpX _ => 67
  | .rorAbs _ => 63
  | .rorAbsX _ => 71
  | .jmpAbs _ => 43
  | .jmpInd _ => 61
  | .jsrAbs _ => 17
  | .rts => 54
  | .bcc _ => 81
  | .bcs _ => 102
  | .beq _ => 143
  | .bne _ => 124
  | .bmi _ => 28
  | .bpl _ => 9
  | .bvc _ => 46
  | .bvs _ => 64
  | .brk => 0
  | .rti => 36
  | .nop => 139
  | .clc => 13
  | .cld => 128
  | .cli => 50
  | .clv => 107
  | .sec => 32
  | .sed => 147
  | .sei => 68

/-- A format builds an instruction from operand bytes that are its operand (30_encoding.md R100, R104). -/
def Format.Builds (f : Format) (i : Instr) : Prop :=
  match f with
  | .f1 j => j = i ∧ i.mode.operandBytes = 0
  | .f2 mk => (∃ b, mk b = i ∧ i.operand.value = zext16 b) ∧ i.mode.operandBytes = 1
  | .f3 mk => mk i.operand.value = i ∧ i.mode.operandBytes = 2

theorem Instr.row_at (i : Instr) :
    ∃ f, catalog[i.catalogIndex]? = some ⟨i.opcode, i.mnemonic, i.mode, f⟩ ∧ f.Builds i := by
  cases i <;> exact ⟨_, rfl, by first | exact ⟨rfl, rfl⟩ | exact ⟨⟨_, rfl, rfl⟩, rfl⟩⟩

/-- Every instruction has its row in the catalog, which builds it. -/
theorem Instr.row (i : Instr) :
    ∃ f, catalogRow? i.opcode = some ⟨i.opcode, i.mnemonic, i.mode, f⟩ ∧ f.Builds i := by
  obtain ⟨f, hf, hb⟩ := i.row_at
  exact ⟨f, catalogRow?_of_mem (List.mem_of_getElem? hf), hb⟩

/-- A format assembles from a buffer what it builds from the operand bytes. -/
theorem Format.assemble_f1 (i : Instr) (rest : List Byte) : (Format.f1 i).assemble bufferFetch rest = (i, rest) := rfl

theorem Format.assemble_f2 (mk : Byte → Instr) (b : Byte) (rest : List Byte) :
    (Format.f2 mk).assemble bufferFetch (b :: rest) = (mk b, rest) := rfl

theorem Format.assemble_f3 (mk : Word → Instr) (lo hi : Byte) (rest : List Byte) :
    (Format.f3 mk).assemble bufferFetch (lo :: hi :: rest) = (mk (concat hi lo), rest) := rfl

/-- A format assembles from the bus what it builds from the bytes at PC, and PC is past them. -/
theorem Format.assemble_bus_f2 (mk : Byte → Instr) (s : State) :
    (Format.f2 mk).assemble fetch s = (mk (s.read s.pc), s.setPc (s.pc + 1)) := rfl

theorem Format.assemble_bus_f3 (mk : Word → Instr) (s : State) :
    (Format.f3 mk).assemble fetch s =
      (mk (concat (s.read (s.pc + 1)) (s.read s.pc)), s.setPc (s.pc + 1 + 1)) := rfl

end Sys2Proof
end

