-- ==== Sys2Proof/Laws/Exec.lean ====
section
/-! SUPPORT. What exec does, said once: the effect of every instruction by its mnemonic and operand. Later proofs cite
`exec_eq` and split on 56 mnemonics, never on 151 constructors. -/

namespace Sys2Proof.Machine

/-- Done on the operand as something to read. -/
def onSource (f : Source → State → State) (o : Operand) (s : State) : State :=
  match o.source? with
  | some src => f src s
  | none => s

/-- Done on the operand as something to write. -/
def onDest (f : Dest → State → State) (o : Operand) (s : State) : State :=
  match o.dest? with
  | some d => f d s
  | none => s

/-- Done on the operand as a memory operand. -/
def onMem (f : MemOperand → State → State) (o : Operand) (s : State) : State :=
  match o.mem? with
  | some m => f m s
  | none => s

/-- A conditional branch on an operand. -/
def onBranch (cond : Bool) (o : Operand) (s : State) : State :=
  match o with
  | .mem (.relative disp) => branch cond disp s
  | _ => s

/-- The effect of an instruction on the state after decode, by mnemonic and operand (41_load_store_transfer.md to
46_system_flags.md). -/
def effect (m : Mnemonic) (o : Operand) (s : State) : State :=
  match m with
  | .lda => onSource doLda o s
  | .ldx => onSource doLdx o s
  | .ldy => onSource doLdy o s
  | .sta => onMem doSta o s
  | .stx => onMem doStx o s
  | .sty => onMem doSty o s
  | .tax => (s.setX s.a).setZN s.a
  | .tay => (s.setY s.a).setZN s.a
  | .txa => (s.setA s.x).setZN s.x
  | .tya => (s.setA s.y).setZN s.y
  | .tsx => (s.setX s.sp).setZN s.sp
  | .txs => doTxsWith Config.txsSetsZN s
  | .pha => (push s.a s).finish
  | .php => (pushFlags s).finish
  | .pla => doPla s
  | .plp => (pullFlags s).finish
  | .adc => onSource doAdc o s
  | .sbc => onSource doSbc o s
  | .and => onSource doAnd o s
  | .ora => onSource doOra o s
  | .eor => onSource doEor o s
  | .cmp => onSource doCmp o s
  | .cpx => onSource doCpx o s
  | .cpy => onSource doCpy o s
  | .bit => onSource doBit o s
  | .inc => onDest doInc o s
  | .dec => onDest doDec o s
  | .inx => (s.setX (s.x + 1)).setZN (s.x + 1)
  | .iny => (s.setY (s.y + 1)).setZN (s.y + 1)
  | .dex => (s.setX (s.x - 1)).setZN (s.x - 1)
  | .dey => (s.setY (s.y - 1)).setZN (s.y - 1)
  | .asl => onDest (shiftOperand aluShl) o s
  | .lsr => onDest (shiftOperand aluShr) o s
  | .rol => onDest (shiftOperand aluRol) o s
  | .ror => onDest (shiftOperand aluRor) o s
  | .jmp => onMem doJmp o s
  | .jsr => onMem doJsr o s
  | .rts => (pullPc 0 s).finish
  | .bcc => onBranch (!s.flag .c) o s
  | .bcs => onBranch (s.flag .c) o s
  | .beq => onBranch (s.flag .z) o s
  | .bne => onBranch (!s.flag .z) o s
  | .bmi => onBranch (s.flag .n) o s
  | .bpl => onBranch (!s.flag .n) o s
  | .bvc => onBranch (!s.flag .v) o s
  | .bvs => onBranch (s.flag .v) o s
  | .brk => doBrk s
  | .rti => returnFromTrap s
  | .nop => s
  | .clc => s.setFlag .c false
  | .cld => s.setFlag .d false
  | .cli => s.setFlag .i false
  | .clv => s.setFlag .v false
  | .sec => s.setFlag .c true
  | .sed => s.setFlag .d true
  | .sei => s.setFlag .i true

/-- exec answers a next state for every instruction: its effect. -/
theorem exec_eq (i : Instr) (s : State) : exec i s = .next (effect i.mnemonic i.operand s) := by
  cases i <;> rfl

/-- Every instruction's mode is one its mnemonic declares (30_encoding.md R110). -/
theorem mode_declared (i : Instr) : i.mnemonic.modes.contains i.operand.mode = true := by
  cases i <;> rfl

/-- Every instruction whose rule reads its operand has one to read. -/
theorem source_of (i : Instr)
    (h : i.mnemonic ∈ [.lda, .ldx, .ldy, .adc, .sbc, .and, .ora, .eor, .cmp, .cpx, .cpy, .bit]) :
    ∃ src, i.operand.source? = some src := by
  have hm := mode_declared i
  generalize i.mnemonic = m at *
  generalize i.operand = o at *
  cases o with
  | mem a => exact ⟨_, rfl⟩
  | accumulator => exact ⟨_, rfl⟩
  | immediate v => exact ⟨_, rfl⟩
  | implicit => fin_cases h <;> exact absurd hm (by decide)

/-- Every instruction whose rule writes its operand has one to write. -/
theorem dest_of (i : Instr) (h : i.mnemonic ∈ [.inc, .dec, .asl, .lsr, .rol, .ror]) :
    ∃ d, i.operand.dest? = some d := by
  have hm := mode_declared i
  generalize i.mnemonic = m at *
  generalize i.operand = o at *
  cases o with
  | mem a => exact ⟨_, rfl⟩
  | accumulator => exact ⟨_, rfl⟩
  | immediate v => simp only [Operand.mode] at hm; fin_cases h <;> exact absurd hm (by decide)
  | implicit => fin_cases h <;> exact absurd hm (by decide)

/-- Every store, jump, increment and decrement has an effective address. -/
theorem mem_of (i : Instr) (h : i.mnemonic ∈ [.sta, .stx, .sty, .jmp, .jsr, .inc, .dec]) :
    ∃ m, i.operand.mem? = some m := by
  have hm := mode_declared i
  generalize i.mnemonic = m at *
  generalize i.operand = o at *
  cases o with
  | mem a => exact ⟨_, rfl⟩
  | accumulator => fin_cases h <;> exact absurd hm (by decide)
  | immediate v => simp only [Operand.mode] at hm; fin_cases h <;> exact absurd hm (by decide)
  | implicit => fin_cases h <;> exact absurd hm (by decide)

/-- Every branch has a displacement. -/
theorem branch_of (i : Instr) (h : i.mnemonic ∈ [.bcc, .bcs, .beq, .bne, .bmi, .bpl, .bvc, .bvs]) :
    ∃ disp, i.operand = .mem (.relative disp) := by
  have hm := mode_declared i
  generalize i.mnemonic = m at *
  generalize i.operand = o at *
  obtain _ | _ | _ | a := o
  · fin_cases h <;> exact absurd hm (by decide)
  · fin_cases h <;> exact absurd hm (by decide)
  · simp only [Operand.mode] at hm; fin_cases h <;> exact absurd hm (by decide)
  · cases a with
    | relative disp => exact ⟨_, rfl⟩
    | _ => simp only [Operand.mode, MemOperand.mode] at hm; fin_cases h <;> exact absurd hm (by decide)

theorem dest_of_mem {o : Operand} {m : MemOperand} (h : o.mem? = some m) : o.dest? = some (.mem m) := by
  cases o <;> simp_all [Operand.mem?, Operand.dest?]

@[simp] theorem onSource_some {f : Source → State → State} {o : Operand} {src : Source} (h : o.source? = some src)
    (s : State) : onSource f o s = f src s := by simp [onSource, h]

@[simp] theorem onDest_some {f : Dest → State → State} {o : Operand} {d : Dest} (h : o.dest? = some d)
    (s : State) : onDest f o s = f d s := by simp [onDest, h]

@[simp] theorem onMem_some {f : MemOperand → State → State} {o : Operand} {m : MemOperand} (h : o.mem? = some m)
    (s : State) : onMem f o s = f m s := by simp [onMem, h]

/-- A step from an engine that is not Faulted runs one instruction (60_exceptions.md R380). -/
theorem step_eq_stepInstr {s : State} (h : ∀ f, s.engine ≠ .faulted f) : step s = stepInstr s.resume := by
  unfold step
  split
  · exact absurd ‹_› (h _)
  · rfl
  · rfl
  · rfl

/-- Decoding over the bus moves PC and changes nothing else (30_encoding.md R121). -/
theorem fetchDecode_moves_pc (s : State) :
    (∃ i pc, fetchDecode s = .instr i (s.setPc pc)) ∨
      (catalogRow? (s.read s.pc) = none ∧ fetchDecode s = .unknownOpcode (s.read s.pc) (s.setPc (s.pc + 1))) := by
  unfold fetchDecode decodeFrom
  simp only [fetch_fst, fetch_snd]
  cases h : catalogRow? (s.read s.pc) with
  | none => exact .inr ⟨rfl, rfl⟩
  | some r =>
    obtain ⟨_, _, _, f⟩ := r
    cases f <;> exact .inl ⟨_, _, rfl⟩

/-- A property kept by every write to the state. -/
structure KeptAll (P : State → Prop) : Prop extends Kept P where
  setA : ∀ s v, P s → P (s.setA v)
  setX : ∀ s v, P s → P (s.setX v)
  setY : ∀ s v, P s → P (s.setY v)

/-- Every effect keeps what every write keeps. -/
theorem effect_kept {P : State → Prop} (k : KeptAll P) (m : Mnemonic) (o : Operand) {s : State} (h : P s) :
    P (effect m o s) := by
  have hfin : ∀ {t : Attempt Unit}, t.All P → P t.finish := fun ht => Attempt.finish_all ht fun f s h => k.setEngine s (.faulted f) h
  have hz : ∀ s v, P s → P (s.setZN v) := fun s v => k.setP s _
  have hw : ∀ d v s, P s → P (writeOperand d v s) := by
    intro d v s h; cases d
    · exact k.setA _ _ h
    · exact k.write _ _ _ h
  have hsrc : ∀ f : Source → State → State, (∀ src s, P s → P (f src s)) → P (onSource f o s) := by
    intro f hf; unfold onSource; split; exact hf _ _ h; exact h
  have hdst : ∀ f : Dest → State → State, (∀ src s, P s → P (f src s)) → P (onDest f o s) := by
    intro f hf; unfold onDest; split; exact hf _ _ h; exact h
  have hmem : ∀ f : MemOperand → State → State, (∀ src s, P s → P (f src s)) → P (onMem f o s) := by
    intro f hf; unfold onMem; split; exact hf _ _ h; exact h
  have hbr : ∀ c, P (onBranch c o s) := by
    intro c; unfold onBranch; split
    · unfold branch; split; exact k.setPc _ _ h; exact h
    · exact h
  have hsh : ∀ g, P (onDest (shiftOperand g) o s) := by
    intro g; apply hdst; intro d s h; unfold shiftOperand; exact hw _ _ _ (k.setP _ _ h)
  cases m <;> simp only [effect]
  case lda => exact hsrc _ fun _ _ h => hz _ _ (k.setA _ _ h)
  case ldx => exact hsrc _ fun _ _ h => hz _ _ (k.setX _ _ h)
  case ldy => exact hsrc _ fun _ _ h => hz _ _ (k.setY _ _ h)
  case sta => exact hmem _ fun _ _ h => hw _ _ _ h
  case stx => exact hmem _ fun _ _ h => hw _ _ _ h
  case sty => exact hmem _ fun _ _ h => hw _ _ _ h
  case tax => exact hz _ _ (k.setX _ _ h)
  case tay => exact hz _ _ (k.setY _ _ h)
  case txa => exact hz _ _ (k.setA _ _ h)
  case tya => exact hz _ _ (k.setA _ _ h)
  case tsx => exact hz _ _ (k.setX _ _ h)
  case txs => exact hz _ _ (k.setSp _ _ h)
  case pha => exact hfin (push_all h (fun _ _ => k.write _ _ _ h) k.setSp _)
  case php => exact hfin (pushFlags_kept k.toKept h)
  case pla => exact hfin (Attempt.andThen_all (pull_all h k.setSp) fun _ _ h => hz _ _ (k.setA _ _ h))
  case plp => exact hfin (pullFlags_kept k.toKept h)
  case adc => exact hsrc _ fun _ _ h => k.setP _ _ (k.setA _ _ h)
  case sbc => exact hsrc _ fun _ _ h => k.setP _ _ (k.setA _ _ h)
  case and => exact hsrc _ fun _ _ h => hz _ _ (k.setA _ _ h)
  case ora => exact hsrc _ fun _ _ h => hz _ _ (k.setA _ _ h)
  case eor => exact hsrc _ fun _ _ h => hz _ _ (k.setA _ _ h)
  case cmp => exact hsrc _ fun _ _ h => k.setP _ _ h
  case cpx => exact hsrc _ fun _ _ h => k.setP _ _ h
  case cpy => exact hsrc _ fun _ _ h => k.setP _ _ h
  case bit => exact hsrc _ fun _ _ h => k.setP _ _ h
  case inc => exact hdst _ fun _ _ h => hz _ _ (hw _ _ _ h)
  case dec => exact hdst _ fun _ _ h => hz _ _ (hw _ _ _ h)
  case inx => exact hz _ _ (k.setX _ _ h)
  case iny => exact hz _ _ (k.setY _ _ h)
  case dex => exact hz _ _ (k.setX _ _ h)
  case dey => exact hz _ _ (k.setY _ _ h)
  case asl => exact hsh _
  case lsr => exact hsh _
  case rol => exact hsh _
  case ror => exact hsh _
  case jmp => exact hmem _ fun _ _ h => k.setPc _ _ h
  case jsr => exact hmem _ fun _ _ h => hfin (Attempt.andThen_all (pushPc_kept k.toKept h 0) fun _ _ h => k.setPc _ _ h)
  case rts => exact hfin (pullPc_kept k.toKept h 0)
  case brk => unfold doBrk; split; exact h; exact takeTrap_kept k.toKept h
  case rti => exact returnFromTrap_kept k.toKept h
  case nop => exact h
  all_goals first | exact hbr _ | exact k.setP _ _ h

end Sys2Proof.Machine
end

