-- ==== Sys2Proof/Tests/Slice0.lean ====
section
/-! SUPPORT. Tests on fixed values. Every expected value is the spec's: the vectors T1 to T11 and V1 to V209 of
95_test_vectors.md, and words written out from the opcode map of 30_encoding.md R112. After them, for every obligation
with hypotheses, a witness that meets them. -/

namespace Sys2Proof.Tests

open Sys2Proof Sys2Proof.Machine Sys2Proof.Claims

/-! ## Well-formedness: an ill-formed term for each check, which the check refuses -/

/-- BIT declares no Immediate mode (43_arith_logic.md R255). -/
theorem test_undeclared_pair_is_refused :
    (Record.mk .bit .immediate 0x24 0x10).pairDeclared = false ∧ (Record.mk .bit .immediate 0x24 0x10).wellFormed = false := by
  decide

/-- STA declares no Immediate mode (41_load_store_transfer.md R175), so its lookup is UnsupportedMode (30_encoding.md
R111). -/
theorem test_unsupported_mode : lookupByMode .sta .immediate = .error (.unsupportedMode .sta .immediate) := rfl

/-- A ZeroPage operand of nine bits does not fit (10_state.md R48). -/
theorem test_operand_too_wide_is_refused :
    (Record.mk .lda .zeroPage 0xA5 0x0100).operandFits = false ∧ (Record.mk .lda .zeroPage 0xA5 0x0100).wellFormed = false ∧
    (Record.mk .lda .zeroPage 0xA5 0x00FF).wellFormed = true := by decide

/-- An Implicit instruction has operand 0 (30_encoding.md R121). -/
theorem test_operand_of_implicit_is_refused :
    (Record.mk .nop .implicit 0xEA 0x0001).operandFits = false ∧ (Record.mk .nop .implicit 0xEA 0x0000).wellFormed = true := by
  decide

/-- An opcode byte of another mode does not match (30_encoding.md R113). -/
theorem test_wrong_opcode_is_refused :
    (Record.mk .lda .immediate 0xA5 0x05).opcodeMatches = false ∧ (Record.mk .lda .immediate 0xA9 0x05).opcodeMatches = true := by
  decide

/-! ## Decoding: every opcode byte of the map, row by row, with operand bytes 34 12 -/

theorem test_decode_row_0x :
    decodeTableWord 8 0x00 = some .brk ∧
    decodeTableWord 16 0x3401 = some (.oraIndX 0x34) ∧
    decodeTableWord 16 0x3405 = some (.oraZp 0x34) ∧
    decodeTableWord 16 0x3406 = some (.aslZp 0x34) ∧
    decodeTableWord 8 0x08 = some .php ∧
    decodeTableWord 16 0x3409 = some (.oraImm 0x34) ∧
    decodeTableWord 8 0x0A = some .aslAcc ∧
    decodeTableWord 24 0x12340D = some (.oraAbs 0x1234) ∧
    decodeTableWord 24 0x12340E = some (.aslAbs 0x1234) := by decide

theorem test_decode_row_1x :
    decodeTableWord 16 0x3410 = some (.bpl 0x34) ∧
    decodeTableWord 16 0x3411 = some (.oraIndY 0x34) ∧
    decodeTableWord 16 0x3415 = some (.oraZpX 0x34) ∧
    decodeTableWord 16 0x3416 = some (.aslZpX 0x34) ∧
    decodeTableWord 8 0x18 = some .clc ∧
    decodeTableWord 24 0x123419 = some (.oraAbsY 0x1234) ∧
    decodeTableWord 24 0x12341D = some (.oraAbsX 0x1234) ∧
    decodeTableWord 24 0x12341E = some (.aslAbsX 0x1234) := by decide

theorem test_decode_row_2x :
    decodeTableWord 24 0x123420 = some (.jsrAbs 0x1234) ∧
    decodeTableWord 16 0x3421 = some (.andIndX 0x34) ∧
    decodeTableWord 16 0x3424 = some (.bitZp 0x34) ∧
    decodeTableWord 16 0x3425 = some (.andZp 0x34) ∧
    decodeTableWord 16 0x3426 = some (.rolZp 0x34) ∧
    decodeTableWord 8 0x28 = some .plp ∧
    decodeTableWord 16 0x3429 = some (.andImm 0x34) ∧
    decodeTableWord 8 0x2A = some .rolAcc ∧
    decodeTableWord 24 0x12342C = some (.bitAbs 0x1234) ∧
    decodeTableWord 24 0x12342D = some (.andAbs 0x1234) ∧
    decodeTableWord 24 0x12342E = some (.rolAbs 0x1234) := by decide

theorem test_decode_row_3x :
    decodeTableWord 16 0x3430 = some (.bmi 0x34) ∧
    decodeTableWord 16 0x3431 = some (.andIndY 0x34) ∧
    decodeTableWord 16 0x3435 = some (.andZpX 0x34) ∧
    decodeTableWord 16 0x3436 = some (.rolZpX 0x34) ∧
    decodeTableWord 8 0x38 = some .sec ∧
    decodeTableWord 24 0x123439 = some (.andAbsY 0x1234) ∧
    decodeTableWord 24 0x12343D = some (.andAbsX 0x1234) ∧
    decodeTableWord 24 0x12343E = some (.rolAbsX 0x1234) := by decide

theorem test_decode_row_4x :
    decodeTableWord 8 0x40 = some .rti ∧
    decodeTableWord 16 0x3441 = some (.eorIndX 0x34) ∧
    decodeTableWord 16 0x3445 = some (.eorZp 0x34) ∧
    decodeTableWord 16 0x3446 = some (.lsrZp 0x34) ∧
    decodeTableWord 8 0x48 = some .pha ∧
    decodeTableWord 16 0x3449 = some (.eorImm 0x34) ∧
    decodeTableWord 8 0x4A = some .lsrAcc ∧
    decodeTableWord 24 0x12344C = some (.jmpAbs 0x1234) ∧
    decodeTableWord 24 0x12344D = some (.eorAbs 0x1234) ∧
    decodeTableWord 24 0x12344E = some (.lsrAbs 0x1234) := by decide

theorem test_decode_row_5x :
    decodeTableWord 16 0x3450 = some (.bvc 0x34) ∧
    decodeTableWord 16 0x3451 = some (.eorIndY 0x34) ∧
    decodeTableWord 16 0x3455 = some (.eorZpX 0x34) ∧
    decodeTableWord 16 0x3456 = some (.lsrZpX 0x34) ∧
    decodeTableWord 8 0x58 = some .cli ∧
    decodeTableWord 24 0x123459 = some (.eorAbsY 0x1234) ∧
    decodeTableWord 24 0x12345D = some (.eorAbsX 0x1234) ∧
    decodeTableWord 24 0x12345E = some (.lsrAbsX 0x1234) := by decide

theorem test_decode_row_6x :
    decodeTableWord 8 0x60 = some .rts ∧
    decodeTableWord 16 0x3461 = some (.adcIndX 0x34) ∧
    decodeTableWord 16 0x3465 = some (.adcZp 0x34) ∧
    decodeTableWord 16 0x3466 = some (.rorZp 0x34) ∧
    decodeTableWord 8 0x68 = some .pla ∧
    decodeTableWord 16 0x3469 = some (.adcImm 0x34) ∧
    decodeTableWord 8 0x6A = some .rorAcc ∧
    decodeTableWord 24 0x12346C = some (.jmpInd 0x1234) ∧
    decodeTableWord 24 0x12346D = some (.adcAbs 0x1234) ∧
    decodeTableWord 24 0x12346E = some (.rorAbs 0x1234) := by decide

theorem test_decode_row_7x :
    decodeTableWord 16 0x3470 = some (.bvs 0x34) ∧
    decodeTableWord 16 0x3471 = some (.adcIndY 0x34) ∧
    decodeTableWord 16 0x3475 = some (.adcZpX 0x34) ∧
    decodeTableWord 16 0x3476 = some (.rorZpX 0x34) ∧
    decodeTableWord 8 0x78 = some .sei ∧
    decodeTableWord 24 0x123479 = some (.adcAbsY 0x1234) ∧
    decodeTableWord 24 0x12347D = some (.adcAbsX 0x1234) ∧
    decodeTableWord 24 0x12347E = some (.rorAbsX 0x1234) := by decide

theorem test_decode_row_8x :
    decodeTableWord 16 0x3481 = some (.staIndX 0x34) ∧
    decodeTableWord 16 0x3484 = some (.styZp 0x34) ∧
    decodeTableWord 16 0x3485 = some (.staZp 0x34) ∧
    decodeTableWord 16 0x3486 = some (.stxZp 0x34) ∧
    decodeTableWord 8 0x88 = some .dey ∧
    decodeTableWord 8 0x8A = some .txa ∧
    decodeTableWord 24 0x12348C = some (.styAbs 0x1234) ∧
    decodeTableWord 24 0x12348D = some (.staAbs 0x1234) ∧
    decodeTableWord 24 0x12348E = some (.stxAbs 0x1234) := by decide

theorem test_decode_row_9x :
    decodeTableWord 16 0x3490 = some (.bcc 0x34) ∧
    decodeTableWord 16 0x3491 = some (.staIndY 0x34) ∧
    decodeTableWord 16 0x3494 = some (.styZpX 0x34) ∧
    decodeTableWord 16 0x3495 = some (.staZpX 0x34) ∧
    decodeTableWord 16 0x3496 = some (.stxZpY 0x34) ∧
    decodeTableWord 8 0x98 = some .tya ∧
    decodeTableWord 24 0x123499 = some (.staAbsY 0x1234) ∧
    decodeTableWord 8 0x9A = some .txs ∧
    decodeTableWord 24 0x12349D = some (.staAbsX 0x1234) := by decide

theorem test_decode_row_Ax :
    decodeTableWord 16 0x34A0 = some (.ldyImm 0x34) ∧
    decodeTableWord 16 0x34A1 = some (.ldaIndX 0x34) ∧
    decodeTableWord 16 0x34A2 = some (.ldxImm 0x34) ∧
    decodeTableWord 16 0x34A4 = some (.ldyZp 0x34) ∧
    decodeTableWord 16 0x34A5 = some (.ldaZp 0x34) ∧
    decodeTableWord 16 0x34A6 = some (.ldxZp 0x34) ∧
    decodeTableWord 8 0xA8 = some .tay ∧
    decodeTableWord 16 0x34A9 = some (.ldaImm 0x34) ∧
    decodeTableWord 8 0xAA = some .tax ∧
    decodeTableWord 24 0x1234AC = some (.ldyAbs 0x1234) ∧
    decodeTableWord 24 0x1234AD = some (.ldaAbs 0x1234) ∧
    decodeTableWord 24 0x1234AE = some (.ldxAbs 0x1234) := by decide

theorem test_decode_row_Bx :
    decodeTableWord 16 0x34B0 = some (.bcs 0x34) ∧
    decodeTableWord 16 0x34B1 = some (.ldaIndY 0x34) ∧
    decodeTableWord 16 0x34B4 = some (.ldyZpX 0x34) ∧
    decodeTableWord 16 0x34B5 = some (.ldaZpX 0x34) ∧
    decodeTableWord 16 0x34B6 = some (.ldxZpY 0x34) ∧
    decodeTableWord 8 0xB8 = some .clv ∧
    decodeTableWord 24 0x1234B9 = some (.ldaAbsY 0x1234) ∧
    decodeTableWord 8 0xBA = some .tsx ∧
    decodeTableWord 24 0x1234BC = some (.ldyAbsX 0x1234) ∧
    decodeTableWord 24 0x1234BD = some (.ldaAbsX 0x1234) ∧
    decodeTableWord 24 0x1234BE = some (.ldxAbsY 0x1234) := by decide

theorem test_decode_row_Cx :
    decodeTableWord 16 0x34C0 = some (.cpyImm 0x34) ∧
    decodeTableWord 16 0x34C1 = some (.cmpIndX 0x34) ∧
    decodeTableWord 16 0x34C4 = some (.cpyZp 0x34) ∧
    decodeTableWord 16 0x34C5 = some (.cmpZp 0x34) ∧
    decodeTableWord 16 0x34C6 = some (.decZp 0x34) ∧
    decodeTableWord 8 0xC8 = some .iny ∧
    decodeTableWord 16 0x34C9 = some (.cmpImm 0x34) ∧
    decodeTableWord 8 0xCA = some .dex ∧
    decodeTableWord 24 0x1234CC = some (.cpyAbs 0x1234) ∧
    decodeTableWord 24 0x1234CD = some (.cmpAbs 0x1234) ∧
    decodeTableWord 24 0x1234CE = some (.decAbs 0x1234) := by decide

theorem test_decode_row_Dx :
    decodeTableWord 16 0x34D0 = some (.bne 0x34) ∧
    decodeTableWord 16 0x34D1 = some (.cmpIndY 0x34) ∧
    decodeTableWord 16 0x34D5 = some (.cmpZpX 0x34) ∧
    decodeTableWord 16 0x34D6 = some (.decZpX 0x34) ∧
    decodeTableWord 8 0xD8 = some .cld ∧
    decodeTableWord 24 0x1234D9 = some (.cmpAbsY 0x1234) ∧
    decodeTableWord 24 0x1234DD = some (.cmpAbsX 0x1234) ∧
    decodeTableWord 24 0x1234DE = some (.decAbsX 0x1234) := by decide

theorem test_decode_row_Ex :
    decodeTableWord 16 0x34E0 = some (.cpxImm 0x34) ∧
    decodeTableWord 16 0x34E1 = some (.sbcIndX 0x34) ∧
    decodeTableWord 16 0x34E4 = some (.cpxZp 0x34) ∧
    decodeTableWord 16 0x34E5 = some (.sbcZp 0x34) ∧
    decodeTableWord 16 0x34E6 = some (.incZp 0x34) ∧
    decodeTableWord 8 0xE8 = some .inx ∧
    decodeTableWord 16 0x34E9 = some (.sbcImm 0x34) ∧
    decodeTableWord 8 0xEA = some .nop ∧
    decodeTableWord 24 0x1234EC = some (.cpxAbs 0x1234) ∧
    decodeTableWord 24 0x1234ED = some (.sbcAbs 0x1234) ∧
    decodeTableWord 24 0x1234EE = some (.incAbs 0x1234) := by decide

theorem test_decode_row_Fx :
    decodeTableWord 16 0x34F0 = some (.beq 0x34) ∧
    decodeTableWord 16 0x34F1 = some (.sbcIndY 0x34) ∧
    decodeTableWord 16 0x34F5 = some (.sbcZpX 0x34) ∧
    decodeTableWord 16 0x34F6 = some (.incZpX 0x34) ∧
    decodeTableWord 8 0xF8 = some .sed ∧
    decodeTableWord 24 0x1234F9 = some (.sbcAbsY 0x1234) ∧
    decodeTableWord 24 0x1234FD = some (.sbcAbsX 0x1234) ∧
    decodeTableWord 24 0x1234FE = some (.incAbsX 0x1234) := by decide

/-- A byte with no entry decodes to nothing, whatever its length is taken to be (V4, V5). -/
theorem test_decode_undefined : decodeTableWord 8 0x02 = none ∧ decodeTableWord 24 0x1234FF = none := by decide

/-- A buffer that ends inside an instruction is no instruction. -/
theorem test_decode_truncated : decode [0xAD, 0x34] = .error .truncated ∧ decode [] = .error .truncated := ⟨rfl, rfl⟩

/-! ## One step each -/

/-- A Running machine at 0x0200 with SP = 0xFF, the other registers 0x00 and these bytes in memory. -/
def mach (cells : List (Word × Byte)) : State :=
  { pc := 0x0200, sp := 0xFF, a := 0x00, x := 0x00, y := 0x00, p := 0x00
    mem := cells.foldl (fun m cell => m.write cell.1 cell.2) [], engine := .running }

/-- The state after one step, if the step answers one. -/
def after (s : State) : Option State :=
  match step s with
  | .next t => some t
  | .fault _ => none
  | .refused _ => none

/-- The registers after one step: PC, SP, A, X, Y, P. -/
def regs (s : State) : Option Registers := (after s).map State.registers

/-- A byte after one step. -/
def byteAfter (s : State) (addr : Word) : Option Byte := (after s).map fun t => t.read addr

/-- The engine state after one step. -/
def engineAfter (s : State) : Option EngineState := (after s).map State.engine

/-- V6: the operand byte after 0xFFFF is at 0x0000. -/
theorem test_fetch_wraps :
    regs ((mach [(0xFFFF, 0xA9), (0x0000, 0x07)]).setPc 0xFFFF) = some ⟨0x0001, 0xFF, 0x07, 0x00, 0x00, 0x00⟩ := by decide

/-- V4: UnknownOpcode(0x02), with PC past the byte. -/
theorem test_unknown_opcode :
    regs (mach [(0x0200, 0x02)]) = some ⟨0x0201, 0xFF, 0x00, 0x00, 0x00, 0x00⟩ ∧
    engineAfter (mach [(0x0200, 0x02)]) = some (.faulted (.unknownOpcode 0x02)) := by decide

/-- V40, V41. -/
theorem test_lda_imm :
    regs (((mach [(0x0200, 0xA9), (0x0201, 0x00)]).setA 0x55).setP 0x80) = some ⟨0x0202, 0xFF, 0x00, 0x00, 0x00, 0x02⟩ ∧
    regs ((mach [(0x0200, 0xA9), (0x0201, 0x80)]).setP 0x03) = some ⟨0x0202, 0xFF, 0x80, 0x00, 0x00, 0x81⟩ := by decide

/-- V42. -/
theorem test_ldx_zpY :
    regs ((mach [(0x0200, 0xB6), (0x0201, 0xF0), (0x0010, 0x7F)]).setY 0x20) = some ⟨0x0202, 0xFF, 0x00, 0x7F, 0x20, 0x00⟩ := by decide

/-- V43. -/
theorem test_ldy_absX :
    regs ((mach [(0x0200, 0xBC), (0x0201, 0x00), (0x0202, 0x20)]).setX 0x01) = some ⟨0x0203, 0xFF, 0x00, 0x01, 0x00, 0x02⟩ := by decide

/-- V21 as a load: the pointer at 0x10. -/
theorem test_lda_indX :
    regs ((mach [(0x0200, 0xA1), (0x0201, 0xF0), (0x0010, 0xCD), (0x0011, 0xAB), (0xABCD, 0x77)]).setX 0x20) = some ⟨0x0202, 0xFF, 0x77, 0x20, 0x00, 0x00⟩ := by decide

/-- V22 as a load: the address 0x1310. -/
theorem test_lda_indY :
    regs ((mach [(0x0200, 0xB1), (0x0201, 0x40), (0x0040, 0xF0), (0x0041, 0x12), (0x1310, 0x77)]).setY 0x20) = some ⟨0x0202, 0xFF, 0x77, 0x00, 0x20, 0x00⟩ := by decide

/-- V44. -/
theorem test_sta_abs :
    byteAfter (mach [(0x0200, 0x8D), (0x0201, 0x00), (0x0202, 0x03), (0x0300, 0x05)]) 0x0300 = some 0x00 ∧
    regs (((mach [(0x0200, 0x8D), (0x0201, 0x00), (0x0202, 0x03)]).setA 0x00).setP 0x80) = some ⟨0x0203, 0xFF, 0x00, 0x00, 0x00, 0x80⟩ := by decide

/-- V45. -/
theorem test_stx_zpY :
    byteAfter (((mach [(0x0200, 0x96), (0x0201, 0xFF)]).setX 0x11).setY 0x02) 0x0001 = some 0x11 ∧
    regs (((mach [(0x0200, 0x96), (0x0201, 0xFF)]).setX 0x11).setY 0x02) = some ⟨0x0202, 0xFF, 0x00, 0x11, 0x02, 0x00⟩ := by decide

/-- V46. -/
theorem test_sty_abs :
    byteAfter ((mach [(0x0200, 0x8C), (0x0201, 0xFF), (0x0202, 0xFF)]).setY 0x22) 0xFFFF = some 0x22 ∧
    regs ((mach [(0x0200, 0x8C), (0x0201, 0xFF), (0x0202, 0xFF)]).setY 0x22) = some ⟨0x0203, 0xFF, 0x00, 0x00, 0x22, 0x00⟩ := by decide

/-- V47 to V51: TAX, TAY, TXA, TYA, TSX. -/
theorem test_transfers :
    regs ((mach [(0x0200, 0xAA)]).setX 0x33) = some ⟨0x0201, 0xFF, 0x00, 0x00, 0x00, 0x02⟩ ∧
    regs ((mach [(0x0200, 0xA8)]).setA 0x90) = some ⟨0x0201, 0xFF, 0x90, 0x00, 0x90, 0x80⟩ ∧
    regs ((mach [(0x0200, 0x8A)]).setX 0x01) = some ⟨0x0201, 0xFF, 0x01, 0x01, 0x00, 0x00⟩ ∧
    regs ((mach [(0x0200, 0x98)]).setY 0xFF) = some ⟨0x0201, 0xFF, 0xFF, 0x00, 0xFF, 0x80⟩ ∧
    regs ((mach [(0x0200, 0xBA)]).setSp 0xFD) = some ⟨0x0201, 0xFD, 0x00, 0xFD, 0x00, 0x80⟩ := by decide

/-- V52, and TXS_SETS_ZN = false. -/
theorem test_txs :
    regs (mach [(0x0200, 0x9A)]) = some ⟨0x0201, 0x00, 0x00, 0x00, 0x00, 0x02⟩ ∧
    (doTxsWith false (mach [(0x0200, 0x9A)])).p = 0x00 := by decide

/-- V60, V62. -/
theorem test_pha :
    byteAfter ((mach [(0x0200, 0x48)]).setA 0x37) 0x01FF = some 0x37 ∧
    regs ((mach [(0x0200, 0x48)]).setA 0x37) = some ⟨0x0201, 0xFE, 0x37, 0x00, 0x00, 0x00⟩ ∧
    byteAfter (((mach [(0x0200, 0x48)]).setSp 0x01).setA 0x44) 0x0101 = some 0x44 ∧
    regs (((mach [(0x0200, 0x48)]).setSp 0x01).setA 0x44) = some ⟨0x0201, 0x00, 0x44, 0x00, 0x00, 0x00⟩ := by decide

/-- V61. -/
theorem test_pha_overflow :
    regs (((mach [(0x0200, 0x48)]).setSp 0x00).setA 0x09) = some ⟨0x0201, 0x00, 0x09, 0x00, 0x00, 0x00⟩ ∧
    engineAfter (((mach [(0x0200, 0x48)]).setSp 0x00).setA 0x09) = some (.faulted .stackOverflow) ∧
    byteAfter (((mach [(0x0200, 0x48)]).setSp 0x00).setA 0x09) 0x0100 = some 0x00 := by decide

/-- V64. -/
theorem test_pla :
    regs (((mach [(0x0200, 0x68)]).setSp 0xFE).setA 0x07) = some ⟨0x0201, 0xFF, 0x00, 0x00, 0x00, 0x02⟩ := by decide

/-- V63. -/
theorem test_pla_underflow :
    regs ((mach [(0x0200, 0x68)]).setA 0x07) = some ⟨0x0201, 0xFF, 0x07, 0x00, 0x00, 0x00⟩ ∧
    engineAfter ((mach [(0x0200, 0x68)]).setA 0x07) = some (.faulted .stackUnderflow) := by decide

/-- V65, V66. -/
theorem test_php :
    byteAfter (mach [(0x0200, 0x08)]) 0x01FF = some 0x10 ∧
    regs (mach [(0x0200, 0x08)]) = some ⟨0x0201, 0xFE, 0x00, 0x00, 0x00, 0x00⟩ ∧
    byteAfter ((mach [(0x0200, 0x08)]).setP 0xE3) 0x01FF = some 0xF3 := by decide

/-- V67, V68. -/
theorem test_plp :
    regs ((mach [(0x0200, 0x28), (0x01FF, 0xFF)]).setSp 0xFE) = some ⟨0x0201, 0xFF, 0x00, 0x00, 0x00, 0xEF⟩ ∧
    regs (((mach [(0x0200, 0x28)]).setSp 0xFE).setP 0x10) = some ⟨0x0201, 0xFF, 0x00, 0x00, 0x00, 0x10⟩ := by decide

/-- T2 and V80 to V87, with V set before. -/
theorem test_add :
    (aluAdd 0xFF 0x01 0x40) = ⟨0x00, 0x43⟩ ∧
    (aluAdd 0x7F 0x01 0x40) = ⟨0x80, 0x80⟩ ∧
    (aluAdd 0xFF 0x00 0x41) = ⟨0x00, 0x43⟩ ∧
    (aluAdd 0x01 0x01 0x41) = ⟨0x03, 0x00⟩ ∧
    (aluAdd 0x80 0x80 0x40) = ⟨0x00, 0x43⟩ ∧
    (aluAdd 0xFF 0xFF 0x41) = ⟨0xFF, 0xC1⟩ ∧
    (aluAdd 0x00 0x00 0x40) = ⟨0x00, 0x02⟩ ∧
    (aluAdd 0x50 0x50 0x40) = ⟨0xA0, 0x80⟩ := by decide

/-- V80 to V87, last column. -/
theorem test_add_signed :
    (aluAddWith .signed 0xFF 0x01 0x40) = ⟨0x00, 0x03⟩ ∧
    (aluAddWith .signed 0x7F 0x01 0x40) = ⟨0x80, 0xC0⟩ ∧
    (aluAddWith .signed 0xFF 0x00 0x41) = ⟨0x00, 0x03⟩ ∧
    (aluAddWith .signed 0x01 0x01 0x41) = ⟨0x03, 0x00⟩ ∧
    (aluAddWith .signed 0x80 0x80 0x40) = ⟨0x00, 0x43⟩ ∧
    (aluAddWith .signed 0xFF 0xFF 0x41) = ⟨0xFF, 0x81⟩ ∧
    (aluAddWith .signed 0x00 0x00 0x40) = ⟨0x00, 0x02⟩ ∧
    (aluAddWith .signed 0x50 0x50 0x40) = ⟨0xA0, 0xC0⟩ := by decide

/-- T3 and V90 to V97, with V set before. -/
theorem test_sub :
    (aluSub 0x00 0x01 0x40) = ⟨0xFF, 0xC1⟩ ∧
    (aluSub 0x05 0x03 0x40) = ⟨0x02, 0x40⟩ ∧
    (aluSub 0x05 0x05 0x40) = ⟨0x00, 0x42⟩ ∧
    (aluSub 0x05 0x05 0x41) = ⟨0xFF, 0xC1⟩ ∧
    (aluSub 0x00 0xFF 0x41) = ⟨0x00, 0x43⟩ ∧
    (aluSub 0x80 0x01 0x40) = ⟨0x7F, 0x40⟩ ∧
    (aluSub 0xFF 0xFF 0x40) = ⟨0x00, 0x42⟩ ∧
    (aluSub 0x03 0x02 0x41) = ⟨0x00, 0x42⟩ := by decide

/-- V80 as a step, with D set. -/
theorem test_adc_imm :
    regs (((mach [(0x0200, 0x69), (0x0201, 0x01)]).setA 0xFF).setP 0x08) = some ⟨0x0202, 0xFF, 0x00, 0x00, 0x00, 0x4B⟩ := by decide

/-- V90 as a step, with D and V set. -/
theorem test_sbc_imm :
    regs ((mach [(0x0200, 0xE9), (0x0201, 0x01)]).setP 0x48) = some ⟨0x0202, 0xFF, 0xFF, 0x00, 0x00, 0xC9⟩ := by decide

/-- V100. -/
theorem test_and_imm :
    regs (((mach [(0x0200, 0x29), (0x0201, 0x0F)]).setA 0xF0).setP 0x41) = some ⟨0x0202, 0xFF, 0x00, 0x00, 0x00, 0x43⟩ := by decide

/-- V101. -/
theorem test_ora_imm :
    regs ((mach [(0x0200, 0x09), (0x0201, 0x01)]).setA 0x80) = some ⟨0x0202, 0xFF, 0x81, 0x00, 0x00, 0x80⟩ := by decide

/-- V102. -/
theorem test_eor_imm :
    regs ((mach [(0x0200, 0x49), (0x0201, 0xFF)]).setA 0x0F) = some ⟨0x0202, 0xFF, 0xF0, 0x00, 0x00, 0x80⟩ := by decide

/-- V103 to V107. -/
theorem test_cmp_imm :
    regs ((mach [(0x0200, 0xC9), (0x0201, 0x05)]).setA 0x05) = some ⟨0x0202, 0xFF, 0x05, 0x00, 0x00, 0x03⟩ ∧
    regs ((mach [(0x0200, 0xC9), (0x0201, 0x05)]).setA 0x04) = some ⟨0x0202, 0xFF, 0x04, 0x00, 0x00, 0x80⟩ ∧
    regs ((mach [(0x0200, 0xC9), (0x0201, 0x04)]).setA 0x05) = some ⟨0x0202, 0xFF, 0x05, 0x00, 0x00, 0x01⟩ ∧
    regs (mach [(0x0200, 0xC9), (0x0201, 0x80)]) = some ⟨0x0202, 0xFF, 0x00, 0x00, 0x00, 0x80⟩ ∧
    regs ((mach [(0x0200, 0xC9), (0x0201, 0x00)]).setA 0x80) = some ⟨0x0202, 0xFF, 0x80, 0x00, 0x00, 0x81⟩ := by decide

/-- V108, and V109 under CMP_C_RULE = borrow. -/
theorem test_cmp_wraps :
    regs ((mach [(0x0200, 0xC9), (0x0201, 0xFF)]).setP 0x83) = some ⟨0x0202, 0xFF, 0x00, 0x00, 0x00, 0x00⟩ ∧
    aluCompareWith .borrow 0x04 0x05 0x00 = 0x81 := by decide

/-- V110. -/
theorem test_cpx_imm :
    regs ((mach [(0x0200, 0xE0), (0x0201, 0x20)]).setX 0x10) = some ⟨0x0202, 0xFF, 0x00, 0x10, 0x00, 0x80⟩ := by decide

/-- V111. -/
theorem test_cpy_imm :
    regs ((mach [(0x0200, 0xC0), (0x0201, 0x04)]).setY 0x04) = some ⟨0x0202, 0xFF, 0x00, 0x00, 0x04, 0x03⟩ := by decide

/-- V112, V113. -/
theorem test_bit :
    regs ((mach [(0x0200, 0x24), (0x0201, 0x40), (0x0040, 0xC0)]).setA 0x01) = some ⟨0x0202, 0xFF, 0x01, 0x00, 0x00, 0xC2⟩ ∧
    regs (((mach [(0x0200, 0x2C), (0x0201, 0x00), (0x0202, 0x12), (0x1200, 0x3F)]).setA 0xFF).setP 0xC0) = some ⟨0x0203, 0xFF, 0xFF, 0x00, 0x00, 0x00⟩ := by decide

/-- V114, V115. -/
theorem test_inc :
    byteAfter ((mach [(0x0200, 0xE6), (0x0201, 0x10), (0x0010, 0xFF)]).setP 0x01) 0x0010 = some 0x00 ∧
    regs ((mach [(0x0200, 0xE6), (0x0201, 0x10), (0x0010, 0xFF)]).setP 0x01) = some ⟨0x0202, 0xFF, 0x00, 0x00, 0x00, 0x03⟩ ∧
    byteAfter ((mach [(0x0200, 0xFE), (0x0201, 0xFF), (0x0202, 0x00), (0x0100, 0x7F)]).setX 0x01) 0x0100 = some 0x80 ∧
    regs ((mach [(0x0200, 0xFE), (0x0201, 0xFF), (0x0202, 0x00), (0x0100, 0x7F)]).setX 0x01) = some ⟨0x0203, 0xFF, 0x00, 0x01, 0x00, 0x80⟩ := by decide

/-- V116. -/
theorem test_dec :
    byteAfter (mach [(0x0200, 0xC6), (0x0201, 0x20)]) 0x0020 = some 0xFF ∧
    regs (mach [(0x0200, 0xC6), (0x0201, 0x20)]) = some ⟨0x0202, 0xFF, 0x00, 0x00, 0x00, 0x80⟩ := by decide

/-- V117 to V120: INX, INY, DEX, DEY. -/
theorem test_index_steps :
    regs ((mach [(0x0200, 0xE8)]).setX 0xFF) = some ⟨0x0201, 0xFF, 0x00, 0x00, 0x00, 0x02⟩ ∧
    regs ((mach [(0x0200, 0xC8)]).setY 0x7F) = some ⟨0x0201, 0xFF, 0x00, 0x00, 0x80, 0x80⟩ ∧
    regs ((mach [(0x0200, 0xCA)]).setX 0x01) = some ⟨0x0201, 0xFF, 0x00, 0x00, 0x00, 0x02⟩ ∧
    regs (mach [(0x0200, 0x88)]) = some ⟨0x0201, 0xFF, 0x00, 0x00, 0xFF, 0x80⟩ := by decide

/-- V130, V131, V132. -/
theorem test_asl :
    regs ((mach [(0x0200, 0x0A)]).setA 0x80) = some ⟨0x0201, 0xFF, 0x00, 0x00, 0x00, 0x03⟩ ∧
    regs (((mach [(0x0200, 0x0A)]).setA 0x40).setP 0x01) = some ⟨0x0201, 0xFF, 0x80, 0x00, 0x00, 0x80⟩ ∧
    byteAfter ((mach [(0x0200, 0x06), (0x0201, 0x10), (0x0010, 0x81)]).setA 0x05) 0x0010 = some 0x02 ∧
    regs ((mach [(0x0200, 0x06), (0x0201, 0x10), (0x0010, 0x81)]).setA 0x05) = some ⟨0x0202, 0xFF, 0x05, 0x00, 0x00, 0x01⟩ := by decide

/-- V133, V134. -/
theorem test_lsr :
    regs ((mach [(0x0200, 0x4A)]).setA 0x01) = some ⟨0x0201, 0xFF, 0x00, 0x00, 0x00, 0x03⟩ ∧
    regs ((mach [(0x0200, 0x4A)]).setA 0xFF) = some ⟨0x0201, 0xFF, 0x7F, 0x00, 0x00, 0x01⟩ := by decide

/-- V135, V136, V137. -/
theorem test_rol :
    regs ((mach [(0x0200, 0x2A)]).setA 0x80) = some ⟨0x0201, 0xFF, 0x00, 0x00, 0x00, 0x03⟩ ∧
    regs (((mach [(0x0200, 0x2A)]).setA 0x80).setP 0x01) = some ⟨0x0201, 0xFF, 0x01, 0x00, 0x00, 0x01⟩ ∧
    regs ((mach [(0x0200, 0x2A)]).setP 0x01) = some ⟨0x0201, 0xFF, 0x01, 0x00, 0x00, 0x00⟩ := by decide

/-- V138, V139, V140, V141. -/
theorem test_ror :
    regs ((mach [(0x0200, 0x6A)]).setA 0x01) = some ⟨0x0201, 0xFF, 0x00, 0x00, 0x00, 0x03⟩ ∧
    regs ((mach [(0x0200, 0x6A)]).setP 0x01) = some ⟨0x0201, 0xFF, 0x80, 0x00, 0x00, 0x80⟩ ∧
    regs (((mach [(0x0200, 0x6A)]).setA 0x01).setP 0x01) = some ⟨0x0201, 0xFF, 0x80, 0x00, 0x00, 0x81⟩ ∧
    byteAfter (((mach [(0x0200, 0x7E), (0x0201, 0xFF), (0x0202, 0x10), (0x1100, 0x02)]).setX 0x01).setP 0x01) 0x1100 = some 0x81 ∧
    regs (((mach [(0x0200, 0x7E), (0x0201, 0xFF), (0x0202, 0x10), (0x1100, 0x02)]).setX 0x01).setP 0x01) = some ⟨0x0203, 0xFF, 0x00, 0x01, 0x00, 0x80⟩ := by decide

/-- V150, V151. -/
theorem test_jmp :
    regs (mach [(0x0200, 0x4C), (0x0201, 0x00), (0x0202, 0x80)]) = some ⟨0x8000, 0xFF, 0x00, 0x00, 0x00, 0x00⟩ ∧
    regs (mach [(0x0200, 0x6C), (0x0201, 0xFF), (0x0202, 0x10), (0x10FF, 0x34), (0x1100, 0x12), (0x1000, 0x56)]) = some ⟨0x1234, 0xFF, 0x00, 0x00, 0x00, 0x00⟩ := by decide

/-- V152, V157. -/
theorem test_jsr :
    byteAfter (mach [(0x0200, 0x20), (0x0201, 0x00), (0x0202, 0x30)]) 0x01FF = some 0x02 ∧
    byteAfter (mach [(0x0200, 0x20), (0x0201, 0x00), (0x0202, 0x30)]) 0x01FE = some 0x03 ∧
    regs (mach [(0x0200, 0x20), (0x0201, 0x00), (0x0202, 0x30)]) = some ⟨0x3000, 0xFD, 0x00, 0x00, 0x00, 0x00⟩ ∧
    byteAfter ((mach [(0xFFFD, 0x20), (0xFFFE, 0xFE), (0xFFFF, 0xFF)]).setPc 0xFFFD) 0x01FF = some 0x00 ∧
    byteAfter ((mach [(0xFFFD, 0x20), (0xFFFE, 0xFE), (0xFFFF, 0xFF)]).setPc 0xFFFD) 0x01FE = some 0x00 ∧
    regs ((mach [(0xFFFD, 0x20), (0xFFFE, 0xFE), (0xFFFF, 0xFF)]).setPc 0xFFFD) = some ⟨0xFFFE, 0xFD, 0x00, 0x00, 0x00, 0x00⟩ := by decide

/-- V153. -/
theorem test_jsr_overflow :
    byteAfter ((mach [(0x0200, 0x20), (0x0201, 0x00), (0x0202, 0x30)]).setSp 0x01) 0x0101 = some 0x02 ∧
    regs ((mach [(0x0200, 0x20), (0x0201, 0x00), (0x0202, 0x30)]).setSp 0x01) = some ⟨0x0203, 0x00, 0x00, 0x00, 0x00, 0x00⟩ ∧
    engineAfter ((mach [(0x0200, 0x20), (0x0201, 0x00), (0x0202, 0x30)]).setSp 0x01) = some (.faulted .stackOverflow) := by decide

/-- V155, V156. -/
theorem test_rts :
    regs ((mach [(0x0200, 0x60), (0x01FE, 0x03), (0x01FF, 0x02)]).setSp 0xFD) = some ⟨0x0203, 0xFF, 0x00, 0x00, 0x00, 0x00⟩ ∧
    regs ((mach [(0x0200, 0x60), (0x01FF, 0x12)]).setSp 0xFE) = some ⟨0x0201, 0xFF, 0x00, 0x00, 0x00, 0x00⟩ ∧
    engineAfter ((mach [(0x0200, 0x60), (0x01FF, 0x12)]).setSp 0xFE) = some (.faulted .stackUnderflow) := by decide

/-- V158, V159, V160: BCC taken and not taken, BCS. -/
theorem test_branches_carry :
    regs (mach [(0x0200, 0x90), (0x0201, 0x10)]) = some ⟨0x0212, 0xFF, 0x00, 0x00, 0x00, 0x00⟩ ∧
    regs ((mach [(0x0200, 0x90), (0x0201, 0x10)]).setP 0x01) = some ⟨0x0202, 0xFF, 0x00, 0x00, 0x00, 0x01⟩ ∧
    regs ((mach [(0x0200, 0xB0), (0x0201, 0xFE)]).setP 0x01) = some ⟨0x0200, 0xFF, 0x00, 0x00, 0x00, 0x01⟩ ∧
    regs (mach [(0x0200, 0xB0), (0x0201, 0xFE)]) = some ⟨0x0202, 0xFF, 0x00, 0x00, 0x00, 0x00⟩ := by decide

/-- V161, V162, V163: BEQ, BNE. -/
theorem test_branches_zero :
    regs ((mach [(0x0200, 0xF0), (0x0201, 0x80)]).setP 0x02) = some ⟨0x0182, 0xFF, 0x00, 0x00, 0x00, 0x02⟩ ∧
    regs ((mach [(0x0208, 0xD0), (0x0209, 0xFB)]).setPc 0x0208) = some ⟨0x0205, 0xFF, 0x00, 0x00, 0x00, 0x00⟩ ∧
    regs ((mach [(0x0005, 0xD0), (0x0006, 0xF0)]).setPc 0x0005) = some ⟨0xFFF7, 0xFF, 0x00, 0x00, 0x00, 0x00⟩ := by decide

/-- V164 to V167: BMI, BPL, BVC, BVS. -/
theorem test_branches_sign :
    regs ((mach [(0x0200, 0x30), (0x0201, 0x7F)]).setP 0x80) = some ⟨0x0281, 0xFF, 0x00, 0x00, 0x00, 0x80⟩ ∧
    regs ((mach [(0xFFF0, 0x10), (0xFFF1, 0x10)]).setPc 0xFFF0) = some ⟨0x0002, 0xFF, 0x00, 0x00, 0x00, 0x00⟩ ∧
    regs (mach [(0x0200, 0x50), (0x0201, 0x02)]) = some ⟨0x0204, 0xFF, 0x00, 0x00, 0x00, 0x00⟩ ∧
    regs ((mach [(0x0200, 0x70), (0x0201, 0x00)]).setP 0x40) = some ⟨0x0202, 0xFF, 0x00, 0x00, 0x00, 0x40⟩ := by decide

/-- T10, V182: the frame, PC and the engine; I is not set. -/
theorem test_brk :
    regs (((mach [(0x0300, 0x00), (0xFFFF, 0x40)]).setPc 0x0300).setP 0x81) = some ⟨0x4000, 0xFC, 0x00, 0x00, 0x00, 0x81⟩ ∧
    engineAfter (((mach [(0x0300, 0x00), (0xFFFF, 0x40)]).setPc 0x0300).setP 0x81) = some .suspended ∧
    byteAfter (((mach [(0x0300, 0x00), (0xFFFF, 0x40)]).setPc 0x0300).setP 0x81) 0x01FF = some 0x03 ∧
    byteAfter (((mach [(0x0300, 0x00), (0xFFFF, 0x40)]).setPc 0x0300).setP 0x81) 0x01FE = some 0x02 ∧
    byteAfter (((mach [(0x0300, 0x00), (0xFFFF, 0x40)]).setPc 0x0300).setP 0x81) 0x01FD = some 0x91 := by decide

/-- V181, V183. -/
theorem test_brk_masked_and_overflow :
    regs (((mach [(0x0300, 0x00), (0xFFFF, 0x40)]).setPc 0x0300).setP 0x04) = some ⟨0x0301, 0xFF, 0x00, 0x00, 0x00, 0x04⟩ ∧
    engineAfter (((mach [(0x0300, 0x00), (0xFFFF, 0x40)]).setPc 0x0300).setP 0x04) = some .running ∧
    byteAfter (((mach [(0x0300, 0x00), (0xFFFF, 0x40)]).setPc 0x0300).setSp 0x02) 0x0102 = some 0x03 ∧
    byteAfter (((mach [(0x0300, 0x00), (0xFFFF, 0x40)]).setPc 0x0300).setSp 0x02) 0x0101 = some 0x02 ∧
    regs (((mach [(0x0300, 0x00), (0xFFFF, 0x40)]).setPc 0x0300).setSp 0x02) = some ⟨0x0301, 0x00, 0x00, 0x00, 0x00, 0x00⟩ ∧
    engineAfter (((mach [(0x0300, 0x00), (0xFFFF, 0x40)]).setPc 0x0300).setSp 0x02) = some (.faulted .stackOverflow) := by decide

/-- T11, V187. -/
theorem test_rti :
    regs ((mach [(0x0200, 0x40), (0x01FD, 0x10), (0x01FE, 0x02), (0x01FF, 0x03)]).setSp 0xFC) = some ⟨0x0302, 0xFF, 0x00, 0x00, 0x00, 0x00⟩ ∧
    regs (((mach [(0x0200, 0x40), (0x01FD, 0x04), (0x01FE, 0x00), (0x01FF, 0x80)]).setSp 0xFC).setP 0x10) = some ⟨0x8000, 0xFF, 0x00, 0x00, 0x00, 0x14⟩ := by decide

/-- V188. -/
theorem test_rti_underflow :
    regs ((mach [(0x0200, 0x40), (0x01FF, 0xC3)]).setSp 0xFE) = some ⟨0x0201, 0xFF, 0x00, 0x00, 0x00, 0xC3⟩ ∧
    engineAfter ((mach [(0x0200, 0x40), (0x01FF, 0xC3)]).setSp 0xFE) = some (.faulted .stackUnderflow) := by decide

/-- V189. -/
theorem test_nop :
    regs ((mach [(0x0200, 0xEA)]).setP 0xFF) = some ⟨0x0201, 0xFF, 0x00, 0x00, 0x00, 0xFF⟩ := by decide

/-- V190 to V193: CLC, SEC, CLD, SED, CLI, SEI, CLV. -/
theorem test_flag_instructions :
    regs ((mach [(0x0200, 0x18)]).setP 0xFF) = some ⟨0x0201, 0xFF, 0x00, 0x00, 0x00, 0xFE⟩ ∧
    regs (mach [(0x0200, 0x38)]) = some ⟨0x0201, 0xFF, 0x00, 0x00, 0x00, 0x01⟩ ∧
    regs ((mach [(0x0200, 0xD8)]).setP 0x08) = some ⟨0x0201, 0xFF, 0x00, 0x00, 0x00, 0x00⟩ ∧
    regs (mach [(0x0200, 0xF8)]) = some ⟨0x0201, 0xFF, 0x00, 0x00, 0x00, 0x08⟩ ∧
    regs ((mach [(0x0200, 0x58)]).setP 0x04) = some ⟨0x0201, 0xFF, 0x00, 0x00, 0x00, 0x00⟩ ∧
    regs (mach [(0x0200, 0x78)]) = some ⟨0x0201, 0xFF, 0x00, 0x00, 0x00, 0x04⟩ ∧
    regs ((mach [(0x0200, 0xB8)]).setP 0xC0) = some ⟨0x0201, 0xFF, 0x00, 0x00, 0x00, 0x80⟩ := by decide

/-- V10 to V16, V25 to V30: addresses that read no memory. -/
theorem test_addresses :
    ea (.zeroPage 0x80) (mach []) = 0x0080 ∧ ea (.zeroPageX 0xFF) ((mach []).setX 0x02) = 0x0001 ∧
    ea (.zeroPageY 0x80) ((mach []).setY 0x90) = 0x0010 ∧ ea (.absolute 0x1234) (mach []) = 0x1234 ∧
    ea (.absoluteX 0x12FF) ((mach []).setX 0x01) = 0x1300 ∧ ea (.absoluteX 0xFFFF) ((mach []).setX 0x02) = 0x0001 ∧
    ea (.absoluteY 0x2000) ((mach []).setY 0xFF) = 0x20FF ∧ ea (.relative 0x10) ((mach []).setPc 0x0202) = 0x0212 ∧
    ea (.relative 0xF0) ((mach []).setPc 0x0202) = 0x01F2 ∧ ea (.relative 0x80) ((mach []).setPc 0x0202) = 0x0182 ∧
    ea (.relative 0x10) ((mach []).setPc 0xFFF2) = 0x0002 ∧ ea (.relative 0xF0) ((mach []).setPc 0x0007) = 0xFFF7 := by
  decide

/-- V17 to V20, V23, V24: addresses read through pointers, and V20 under ZP_POINTER_WRAP = false. -/
theorem test_pointers :
    ea (.indirect 0x10FF) (mach [(0x10FF, 0x34), (0x1100, 0x12)]) = 0x1234 ∧
    ea (.indirect 0xFFFF) (mach [(0x0000, 0x80)]) = 0x8000 ∧
    ea (.indirectX 0x20) ((mach [(0x0025, 0x03)]).setX 0x04) = 0x0300 ∧
    ea (.indirectX 0xFE) ((mach [(0x00FF, 0x34), (0x0000, 0x12)]).setX 0x01) = 0x1234 ∧
    zpRead16With false (mach [(0x00FF, 0x34), (0x0000, 0x12), (0x0100, 0x56)]) 0xFF = 0x5634 ∧
    ea (.indirectY 0x40) ((mach [(0x0040, 0xFF), (0x0041, 0xFF)]).setY 0x02) = 0x0001 ∧
    ea (.indirectY 0xFF) (mach [(0x0000, 0x20)]) = 0x2000 := by decide

/-! ## The control port -/

/-- A created engine, Idle, registers 0x00. -/
def fresh : State := State.created ⟨0, 0, 0, 0, 0, 0⟩

/-- T8: start loads PC from the reset vector. -/
theorem test_start :
    start ((fresh.write 0xFFFC 0x00).write 0xFFFD 0x80) = .ok (((fresh.write 0xFFFC 0x00).write 0xFFFD 0x80).setPc 0x8000) := rfl

/-- V203: a single step from Idle. -/
theorem test_single_step :
    (hostStep ((mach [(0x0200, 0xA9), (0x0201, 0x05)]).setEngine .idle)).toOption.map (fun t => (t.a, t.engine)) =
      some (0x05, .suspended) := by decide

/-- V205: an image of three bytes. -/
theorem test_load_image :
    (loadImage [0xA9, 0x05, 0x00] fresh).toOption.map State.mem = some [(0x0000, 0xA9), (0x0001, 0x05)] := by decide

/-- V206, V207: two pairs; a value too large, under both readings. -/
theorem test_configuration :
    configure [(['s', 'p'], ['2', '5', '5']), (['f', 'l', 'a', 'g', 's'], ['4'])] fresh = .ok ((fresh.setSp 0xFF).setP 0x04) ∧
    configure [(['p', 'c'], ['7', '0', '0', '0', '0'])] fresh = .ok (fresh.setPc 0x1170) ∧
    configureWith .reject [(['p', 'c'], ['7', '0', '0', '0', '0'])] fresh = .error .invalidRegisterValue := ⟨rfl, rfl, rfl⟩

/-- V208, V209: a bad key, a bad value. -/
theorem test_configuration_errors :
    configure [(['a'], ['1']), (['q'], ['2'])] fresh = .error .invalidRegisterKey ∧
    configure [(['x'], ['a', 'b', 'c'])] fresh = .error .invalidRegisterValue := ⟨rfl, rfl⟩

/-- The next step runs what `withFetchWord` stores, from the reset state: LDA #$05. -/
theorem test_withFetchWord : (after (State.reset.withFetchWord 16 0x05A9)).map State.a = some 0x05 := by decide

/-! ## Witnesses: for each obligation with hypotheses, values that meet them -/

/-- A Running machine with SP as given. -/
def atSp (sp : Byte) : State := (mach []).setSp sp

theorem witness_inv : (mach [(0x0010, 0x55)]).Inv ∧ (atSp 0x02).Inv ∧ (atSp 0x03).Inv := ⟨rfl, rfl, rfl⟩

theorem witness_DecodedBytesAreTheEncoding :
    decode [0x8D, 0x00, 0x02, 0x77] = .ok (.staAbs 0x0200, [0x77]) := rfl

theorem witness_CatalogIsOneToOne :
    Mode.immediate ∈ Mnemonic.modes .lda ∧ lookupByMode .lda .immediate = .ok 0xA9 ∧
    lookupByOpcode 0xA9 = .ok (.lda, .immediate) ∧ (∀ m md, lookupByMode m md ≠ .ok 0x02) := by
  refine ⟨by decide, rfl, rfl, fun m md => ?_⟩
  cases m <;> cases md <;> nofun

theorem witness_UndefinedOpcodeBytesAreThe105 :
    lookupByOpcode 0x02 = .error (.unknownOpcode 0x02) ∧ lookupByOpcode 0xFF = .error (.unknownOpcode 0xFF) := ⟨rfl, rfl⟩

theorem witness_StepRunsTheDecodedInstruction :
    ∀ s, s = (mach [(0xFFFF, 0xA9), (0x0000, 0x07)]).setPc 0xFFFF → s.alive = true ∧
    decode [s.read s.pc, s.read (s.pc + 1), s.read (s.pc + 2)] = .ok (.ldaImm 0x07, [0x00]) := by
  rintro s rfl
  exact ⟨rfl, rfl⟩

theorem witness_UnknownOpcodeStopsTheEngine :
    (mach [(0x0200, 0x02)]).alive = true ∧ lookupByOpcode ((mach [(0x0200, 0x02)]).read (mach [(0x0200, 0x02)]).pc) =
      .error (.unknownOpcode ((mach [(0x0200, 0x02)]).read (mach [(0x0200, 0x02)]).pc)) := ⟨rfl, rfl⟩

theorem witness_FaultedIsTerminal :
    ((mach []).setEngine (.faulted .stackOverflow)).engine = .faulted .stackOverflow := rfl

theorem witness_AliveEngineAlwaysAnswers :
    State.reset.alive = true ∧ (mach []).alive = true ∧ ((mach []).setEngine .suspended).alive = true := ⟨rfl, rfl, rfl⟩

theorem witness_StepKeepsTheInvariant :
    (mach [(0x0200, 0x48)]).Inv ∧ ∃ t, step (mach [(0x0200, 0x48)]) = .next t := ⟨rfl, _, rfl⟩

theorem witness_MemoryReadsBackWhatIsWritten :
    (mach [(0x0010, 0x55)]).Inv ∧ (0x0011 : Word) ≠ 0x0010 := ⟨rfl, by decide⟩

theorem witness_MemoryIsWrittenOnlyByStoresAndPushes :
    (∃ t, exec (.staZp 0x10) ((mach []).setA 0x01) = .next t ∧ t.read 0x0010 ≠ ((mach []).setA 0x01).read 0x0010) ∧
    (∃ t, exec .pha ((atSp 0x01).setA 0x01) = .next t ∧ t.read 0x0101 ≠ ((atSp 0x01).setA 0x01).read 0x0101) ∧
    (∃ t, exec .pha ((mach []).setA 0x01) = .next t ∧ t.read 0x01FF ≠ ((mach []).setA 0x01).read 0x01FF) := ⟨⟨_, rfl, by decide⟩, ⟨_, rfl, by decide⟩, ⟨_, rfl, by decide⟩⟩

theorem witness_ZeroPageAndAbsoluteAddresses :
    ((mach []).setX 0x02).x = 0x02 ∧ MemOperand.zeroPageX 0x10 ∈
      [MemOperand.zeroPage 0x10, .zeroPageX 0x10, .zeroPageY 0x10, .absolute 0x1234] := ⟨rfl, by decide⟩

theorem witness_ZeroPagePointersAndTheirSwitch :
    (0xFE : Byte) ≠ 0xFF := by decide

theorem witness_LoadsWriteTheirRegister :
    (Instr.ldaIndY 0x40).mnemonic = .lda ∧ (Instr.ldxZpY 0xF0).mnemonic = .ldx ∧ (Instr.ldyAbsX 0x2000).mnemonic = .ldy := ⟨rfl, rfl, rfl⟩

theorem witness_StoresWriteOneByte :
    (Instr.staIndY 0x40).mnemonic = .sta ∧ (Instr.stxZpY 0xFF).mnemonic = .stx ∧ (Instr.styAbs 0xFFFF).mnemonic = .sty ∧
    (mach []).Inv := ⟨rfl, rfl, rfl, rfl⟩

theorem witness_PushAndPullOfOneByte :
    (atSp 0x00).sp = 0x00 ∧ (atSp 0x01).sp ≠ 0x00 ∧ (atSp 0x01).Inv ∧ (atSp 0xFF).sp ≠ 0x00 ∧ (atSp 0xFF).sp = 0xFF ∧
    (atSp 0xFE).sp ≠ 0xFF ∧ (atSp 0x00).sp ≠ 0xFF := ⟨rfl, by decide, rfl, by decide, rfl, by decide, by decide⟩

theorem witness_PushThenPullGivesTheByteBack :
    (atSp 0x01).Inv ∧ (atSp 0x01).sp ≠ 0x00 ∧ (atSp 0xFF).Inv ∧ (atSp 0xFF).sp ≠ 0x00 := ⟨rfl, by decide, rfl, by decide⟩

theorem witness_PhaAndPhpPush :
    (atSp 0x01).sp ≠ 0x00 ∧ (atSp 0x01).Inv ∧ (atSp 0xFF).sp ≠ 0x00 := ⟨by decide, rfl, by decide⟩

theorem witness_PlaAndPlpPull :
    (atSp 0xFE).sp ≠ 0xFF ∧ (atSp 0x00).sp ≠ 0xFF ∧ Flag.u ≠ .b := ⟨by decide, by decide, by decide⟩

theorem witness_OneByteStackFaults :
    (atSp 0x00).sp = 0x00 ∧ (atSp 0xFF).sp = 0xFF := ⟨rfl, rfl⟩

theorem witness_AdcAddsWithCarry :
    (Instr.adcIndX 0x20).mnemonic = .adc ∧ (Instr.adcImm 0x01).mnemonic = .adc := ⟨rfl, rfl⟩

theorem witness_SbcSubtractsWithBorrow :
    (Instr.sbcIndX 0x20).mnemonic = .sbc ∧ (Instr.sbcImm 0x01).mnemonic = .sbc := ⟨rfl, rfl⟩

theorem witness_SignedOverflowReadingsDifferOnlyInV :
    Flag.c ≠ .v ∧ Flag.n ≠ .v := ⟨by decide, by decide⟩

theorem witness_LogicalInstructionsCombineIntoA :
    (Instr.andImm 0x0F).mnemonic = .and ∧ (Instr.oraAbsY 0x2000).mnemonic = .ora ∧ (Instr.eorIndY 0x40).mnemonic = .eor := ⟨rfl, rfl, rfl⟩

theorem witness_ComparesSetFlagsOnly :
    (Instr.cmpIndX 0x20).mnemonic = .cmp ∧ (Instr.cpxAbs 0x2000).mnemonic = .cpx ∧ (Instr.cpyImm 0x04).mnemonic = .cpy := ⟨rfl, rfl, rfl⟩

theorem witness_BitTestsMemoryAgainstA :
    (Instr.bitZp 0x40).mnemonic = .bit ∧ (Instr.bitAbs 0x1200).mnemonic = .bit := ⟨rfl, rfl⟩

theorem witness_IncAndDecStepAMemoryByte :
    (Instr.incAbsX 0x00FF).mnemonic = .inc ∧ (Instr.decZp 0x20).mnemonic = .dec ∧ (mach [(0x0020, 0xFF)]).Inv := ⟨rfl, rfl, rfl⟩

theorem witness_ShiftsAndRotates :
    (Instr.aslAcc).mnemonic = .asl ∧ (Instr.lsrZp 0x10).mnemonic = .lsr ∧ (Instr.rolAbs 0x2000).mnemonic = .rol ∧
    (Instr.rorAbsX 0x10FF).mnemonic = .ror ∧ (Instr.aslAcc).operand.dest? = some .accumulator ∧
    (Instr.rorAbsX 0x10FF).operand.dest? = some (.mem (.absoluteX 0x10FF)) ∧ (mach [(0x1100, 0x02)]).Inv := ⟨rfl, rfl, rfl, rfl, rfl, rfl, rfl⟩

theorem witness_JumpsSetPc :
    (Instr.jmpAbs 0x8000).mnemonic = .jmp ∧ (Instr.jmpInd 0x10FF).mnemonic = .jmp ∧
    (mach [(0x10FF, 0x34), (0x1100, 0x12)]).read 0x10FF = 0x34 ∧ (mach [(0x10FF, 0x34), (0x1100, 0x12)]).read 0x1100 = 0x12 := ⟨rfl, rfl, rfl, rfl⟩

theorem witness_JsrPushesTheReturnAddress :
    2 ≤ (atSp 0x02).sp.toNat ∧ (atSp 0x02).Inv ∧ 2 ≤ (atSp 0xFF).sp.toNat := ⟨by decide, rfl, by decide⟩

theorem witness_RtsPullsTheReturnAddress :
    (atSp 0xFD).sp.toNat ≤ 0xFD ∧ (atSp 0x00).sp.toNat ≤ 0xFD := ⟨by decide, by decide⟩

theorem witness_JsrThenRtsComesBack :
    (atSp 0x02).Inv ∧ 2 ≤ (atSp 0x02).sp.toNat := ⟨rfl, by decide⟩

theorem witness_CallAndReturnFaults :
    (atSp 0x00).sp = 0x00 ∧ (atSp 0x01).sp = 0x01 ∧ (atSp 0x01).Inv ∧ (atSp 0xFF).sp = 0xFF ∧ (atSp 0xFE).sp = 0xFE := ⟨rfl, rfl, rfl, rfl, rfl⟩

theorem witness_BranchesTestOneFlag :
    (Instr.bcc 0x10).mnemonic = .bcc ∧ (Instr.bcs 0x10).mnemonic = .bcs ∧ (Instr.beq 0x10).mnemonic = .beq ∧
    (Instr.bne 0x10).mnemonic = .bne ∧ (Instr.bmi 0x10).mnemonic = .bmi ∧ (Instr.bpl 0x10).mnemonic = .bpl ∧
    (Instr.bvc 0x10).mnemonic = .bvc ∧ (Instr.bvs 0x10).mnemonic = .bvs ∧ (mach []).flag .c = false ∧
    ((mach []).setP 0x01).flag .c ≠ false := ⟨rfl, rfl, rfl, rfl, rfl, rfl, rfl, rfl, rfl, by decide⟩

theorem witness_TakenBrkEntersTheTrap :
    (atSp 0x03).flag .i = false ∧ 3 ≤ (atSp 0x03).sp.toNat ∧ (atSp 0x03).Inv ∧ 3 ≤ (atSp 0xFF).sp.toNat := ⟨rfl, by decide, rfl, by decide⟩

theorem witness_MaskedBrkDoesNothing :
    ((mach []).setP 0x04).flag .i = true := rfl

theorem witness_BrkFaultsBeforeTheVector :
    (atSp 0x00).flag .i = false ∧ (atSp 0x00).sp = 0x00 ∧ (atSp 0x01).flag .i = false ∧ (atSp 0x01).sp = 0x01 ∧ (atSp 0x01).Inv ∧
    (atSp 0x02).flag .i = false ∧ (atSp 0x02).sp = 0x02 ∧ (atSp 0x02).Inv := ⟨rfl, rfl, rfl, rfl, rfl, rfl, rfl, rfl⟩

theorem witness_RtiRestoresFlagsAndPc :
    (atSp 0xFC).sp.toNat ≤ 0xFC ∧ (atSp 0x00).sp.toNat ≤ 0xFC ∧ Flag.u ≠ .b := ⟨by decide, by decide, by decide⟩

theorem witness_RtiFaultsKeepWhatIsDone :
    (atSp 0xFF).sp = 0xFF ∧ (atSp 0xFE).sp = 0xFE ∧ (atSp 0xFD).sp = 0xFD ∧ Flag.u ≠ .b := ⟨rfl, rfl, rfl, by decide⟩

theorem witness_BrkThenRtiResumes :
    (atSp 0x03).Inv ∧ (atSp 0x03).flag .i = false ∧ 3 ≤ (atSp 0x03).sp.toNat := ⟨rfl, rfl, by decide⟩

theorem witness_NopChangesNothing :
    (mach [(0x0200, 0xEA)]).engine = .running ∧ (mach [(0x0200, 0xEA)]).read (mach [(0x0200, 0xEA)]).pc = 0xEA := ⟨rfl, rfl⟩

theorem witness_OnlyTheNamedInstructionsWriteARegister :
    (∃ t, exec (.ldaImm 0x05) (mach []) = .next t ∧ t.a ≠ (mach []).a) ∧
    (∃ t, exec .aslAcc ((mach []).setA 0x01) = .next t ∧ t.a ≠ ((mach []).setA 0x01).a) ∧
    (∃ t, exec .inx (mach []) = .next t ∧ t.x ≠ (mach []).x) ∧ (∃ t, exec .dey (mach []) = .next t ∧ t.y ≠ (mach []).y) ∧
    (∃ t, exec .pha (mach []) = .next t ∧ t.sp ≠ (mach []).sp) ∧
    (∃ t, exec (.jmpAbs 0x8000) (mach []) = .next t ∧ t.pc ≠ (mach []).pc) := 
  ⟨⟨_, rfl, by decide⟩, ⟨_, rfl, by decide⟩, ⟨_, rfl, by decide⟩, ⟨_, rfl, by decide⟩, ⟨_, rfl, by decide⟩, ⟨_, rfl, by decide⟩⟩

theorem witness_OnlyTheNamedInstructionsWriteAFlag :
    (∃ t, exec .sec (mach []) = .next t ∧ t.flag .c ≠ (mach []).flag .c) ∧
    (∃ t, exec (.ldaImm 0x00) (mach []) = .next t ∧ t.flag .z ≠ (mach []).flag .z) ∧
    (∃ t, exec (.ldaImm 0x80) (mach []) = .next t ∧ t.flag .n ≠ (mach []).flag .n) ∧
    (∃ t, exec .sei (mach []) = .next t ∧ t.flag .i ≠ (mach []).flag .i) ∧
    (∃ t, exec .sed (mach []) = .next t ∧ t.flag .d ≠ (mach []).flag .d) ∧
    (∃ t, exec .plp ((mach [(0x01FF, 0x20)]).setSp 0xFE) = .next t ∧ t.flag .u ≠ ((mach [(0x01FF, 0x20)]).setSp 0xFE).flag .u) ∧
    (∃ t, exec .clv ((mach []).setP 0x40) = .next t ∧ t.flag .v ≠ ((mach []).setP 0x40).flag .v) := 
  ⟨⟨_, rfl, by decide⟩, ⟨_, rfl, by decide⟩, ⟨_, rfl, by decide⟩, ⟨_, rfl, by decide⟩, ⟨_, rfl, by decide⟩, ⟨_, rfl, by decide⟩,
    ⟨_, rfl, by decide⟩⟩

theorem witness_BreakBitIsKeptByEveryStep :
    (∃ t, ((mach [(0x0200, 0x28), (0x01FF, 0xFF)]).setSp 0xFE).flag .b = false ∧
      step ((mach [(0x0200, 0x28), (0x01FF, 0xFF)]).setSp 0xFE) = .next t) := ⟨_, rfl, rfl⟩

theorem witness_DecimalBitHasNoEffect :
    (Instr.adcImm 0x09).mnemonic ∉ [.php, .brk] ∧ (0x01FE : Word) ∉ [stackSlot (mach []).sp] ∧
    (0x01FF : Word) ∉ [stackSlot ((mach []).sp - 2)] ∧ Flag.b ≠ .d := by decide

theorem witness_EngineChangesOnlyByBrkAndFaults :
    (∃ t, exec .nop (mach []) = .next t) ∧ (∃ t, exec .brk (mach []) = .next t ∧ t.engine = .suspended) ∧
    (∃ t, exec .pha (atSp 0x00) = .next t ∧ t.engine = .faulted .stackOverflow) ∧
    (∃ t, exec .pla (atSp 0xFF) = .next t ∧ t.engine = .faulted .stackUnderflow) := ⟨⟨_, rfl⟩, ⟨_, rfl, rfl⟩, ⟨_, rfl, rfl⟩, ⟨_, rfl, rfl⟩⟩

theorem witness_StartLoadsTheResetVector :
    (fresh.write 0xFFFD 0x80).engine = .idle ∧ (fresh.write 0xFFFD 0x80).read 0xFFFC = 0x00 ∧
    (fresh.write 0xFFFD 0x80).read 0xFFFD = 0x80 ∧ (mach []).engine ≠ .idle := ⟨rfl, rfl, rfl, by decide⟩

theorem witness_LoadImageFillsMemoryFromZero :
    fresh.Inv ∧ fresh.engine = .idle ∧ (List.replicate 65536 (0x55 : Byte)).length ≤ 65536 ∧
    65536 < (List.replicate 65537 (0x55 : Byte)).length ∧ (0 : Nat) < [(0x55 : Byte)].length ∧ [(0x55 : Byte)].length ≤ (0x0001 : Word).toNat := by
  refine ⟨rfl, rfl, List.length_replicate.le, ?_, by decide, by decide⟩
  rw [List.length_replicate]
  decide

theorem witness_ConfigurationIsAllOrNothing :
    fresh.engine = .idle ∧ parseKey ['q'] = none ∧ parseUnsigned [] = none ∧
    (∃ t, configure [(['x'], ['1']), (['x'], ['2'])] fresh = .ok t) ∧
    [(['x'], ['1']), (['x'], ['2'])] = [(['x'], ['1'])] ++ (['x'], ['2']) :: ([] : List (List Char × List Char)) ∧
    parseKey ['x'] = some .x ∧ parseUnsigned ['2'] = some 2 ∧
    (∀ q, q ∈ [(['x'], ['1']), (['x'], ['2'])] → parseKey q.1 ≠ some .y) := by
  refine ⟨rfl, rfl, rfl, ⟨_, rfl⟩, rfl, rfl, rfl, ?_⟩
  simp [parseKey]

theorem witness_HostStepExecutesOneInstruction :
    fresh.engine = .idle ∧ ((mach []).setEngine .suspended).engine = .suspended ∧ (mach []).engine = .running ∧
    (∃ t, step (mach [(0x0200, 0xEA)]) = .next t ∧ t.faultRecord = none) := ⟨rfl, rfl, rfl, _, rfl, rfl⟩

theorem witness_RunReturnsAtABreakOrAFault :
    (mach []).engine = .running ∧ ((mach []).setEngine .suspended).engine ≠ .running ∧
    (∃ t, run (fun _ _ => true) 1 ((mach []).setEngine .suspended) = .ok (.suspended t)) ∧
    (∃ t, runLoop (fun _ _ => true) 1 (mach []) = .suspended t) ∧ (∃ t, runLoop (fun _ _ => true) 1 (mach [(0x0200, 0x68)]) =
      .faulted .stackUnderflow t) ∧ (∀ t, runLoop (fun _ _ => true) 1 (mach []) ≠ .unfinished t) ∧ (mach []).alive = true ∧
    (∃ t, step (mach [(0x0200, 0x68)]) = .next t ∧ t.engine = .faulted .stackUnderflow) ∧
    (∃ t, step (mach []) = .next t ∧ t.engine = .suspended ∧ t.alive = true) ∧
    (∃ t, step (mach [(0x0200, 0xEA)]) = .next t ∧ t.alive = true ∧ t.engine ≠ .suspended) := 
  ⟨rfl, by decide, ⟨_, rfl⟩, ⟨_, rfl⟩, ⟨_, rfl⟩, nofun, rfl, ⟨_, rfl, rfl⟩, ⟨_, rfl, rfl, rfl⟩, ⟨_, rfl, rfl, by decide⟩⟩

theorem witness_AccessorsFollowTheEngineState :
    (mach []).engine = .running ∧ fresh.engine = .idle ∧ fresh.engine ≠ .running ∧
    ((mach []).setEngine .suspended).engine = .suspended ∧ RegKey.sp ≠ .pc ∧ fresh.Inv := ⟨rfl, rfl, by decide, rfl, by decide, rfl⟩

end Sys2Proof.Tests
end

/-! PROOFS. The two lookups of the catalog (30_encoding.md R110, R111): what each can answer, and that the opcode map of
R112, which the lookup by byte reads, and the table by mnemonic of R113, which the lookup by mode reads, hold the same
entries. -/

namespace Sys2Proof.Proofs.Catalog

/-- The lookup by opcode byte gives the pair of the catalog's row with that byte, or fails in one way. -/
theorem lookupByOpcode_cases (b : Byte) :
    (∃ r ∈ catalog, r.opcode = b ∧ lookupByOpcode b = .ok (r.mnemonic, r.mode)) ∨
      lookupByOpcode b = .error (.unknownOpcode b) := by
  unfold lookupByOpcode
  cases hr : catalogRow? b with
  | none => exact .inr rfl
  | some r =>
    obtain ⟨hmem, hop⟩ := mem_of_catalogRow? hr
    exact .inl ⟨r, hmem, hop, rfl⟩

/-- The lookup by mode succeeds as the lookup in the mnemonic's list of opcode bytes does. -/
theorem lookupByMode_eq_ok_iff {m : Mnemonic} {md : Mode} {b : Byte} :
    lookupByMode m md = .ok b ↔ (opcodesOf m).lookup md = some b := by
  unfold lookupByMode
  cases (opcodesOf m).lookup md <;> simp

theorem mem_opcodesOf_of_lookupByMode {m : Mnemonic} {md : Mode} {b : Byte} (h : lookupByMode m md = .ok b) :
    (md, b) ∈ opcodesOf m := by
  obtain ⟨before, after, hl, -⟩ := List.lookup_eq_some_iff.1 (lookupByMode_eq_ok_iff.1 h)
  simp [hl]

/-- The table by mnemonic lists the declared modes, in their order. -/
theorem opcodesOf_modes (m : Mnemonic) : (opcodesOf m).map Prod.fst = m.modes := by
  cases m <;> rfl

/-- Every row of the opcode map R112 stands in the table by mnemonic R113. -/
theorem lookupByMode_of_mem_catalog {r : CatalogRow} (hr : r ∈ catalog) :
    lookupByMode r.mnemonic r.mode = .ok r.opcode := by
  have rows : catalog.map (fun r => lookupByMode r.mnemonic r.mode) = catalog.map (fun r => .ok r.opcode) := rfl
  exact List.map_inj_left.1 rows r hr

/-- Every entry of the table by mnemonic R113 stands in the opcode map R112. -/
theorem lookupByOpcode_of_mem_opcodesOf {m : Mnemonic} {md : Mode} {b : Byte} (h : (md, b) ∈ opcodesOf m) :
    lookupByOpcode b = .ok (m, md) := by
  have entries : (opcodesOf m).map (fun p => lookupByOpcode p.2) = (opcodesOf m).map (fun p => .ok (m, p.1)) := by
    cases m <;> rfl
  exact List.map_inj_left.1 entries (md, b) h

/-- A mnemonic declares exactly the modes for which it has an opcode byte. -/
theorem mem_modes_iff_lookupByMode {m : Mnemonic} {md : Mode} : md ∈ m.modes ↔ ∃ b, lookupByMode m md = .ok b :=
  calc md ∈ m.modes
    _ ↔ ∃ p ∈ opcodesOf m, (md == p.1) = true := by simp [← opcodesOf_modes]
    _ ↔ ((opcodesOf m).lookup md).isSome = true := List.lookup_isSome_iff.symm
    _ ↔ ∃ b, lookupByMode m md = .ok b := by simp only [Option.isSome_iff_exists, lookupByMode_eq_ok_iff]

/-- The two lookups are inverse; so a pair's opcode byte is no other pair's. -/
theorem lookupByOpcode_eq_ok_iff_lookupByMode {b : Byte} {m : Mnemonic} {md : Mode} :
    lookupByOpcode b = .ok (m, md) ↔ lookupByMode m md = .ok b := by
  constructor
  · intro h
    obtain ⟨r, hr, rfl, hok⟩ | herr := lookupByOpcode_cases b
    · obtain ⟨rfl, rfl⟩ : r.mnemonic = m ∧ r.mode = md := by simpa [hok] using h
      exact lookupByMode_of_mem_catalog hr
    · simp [herr] at h
  · exact fun h => lookupByOpcode_of_mem_opcodesOf (mem_opcodesOf_of_lookupByMode h)

/-- Settles O4, from the agreement of the opcode map R112 with the table by mnemonic R113. -/
theorem catalogIsOneToOne : Obligations.CatalogIsOneToOne := by
  refine ⟨fun m md => mem_modes_iff_lookupByMode, fun b m md => lookupByOpcode_eq_ok_iff_lookupByMode, fun b hb => ?_⟩
  obtain ⟨r, hr, rfl, -⟩ | herr := lookupByOpcode_cases b
  · exact absurd (lookupByMode_of_mem_catalog hr) (hb r.mnemonic r.mode)
  · exact herr

end Sys2Proof.Proofs.Catalog

/-! PROOFS. Effective addresses that need no memory read (40_addressing.md R141, R142, R144), and the operand read in
each mode (R158). -/

namespace Sys2Proof.Proofs.Addressing

open Sys2Proof.Machine

theorem zext16_toNat (b : Byte) : (zext16 b).toNat = b.toNat :=
  BitVec.toNat_setWidth_of_le (by decide)

/-- A byte sum made an address stays in the zero page: the carry is lost before the extension. -/
theorem zext16_add_toNat (a b : Byte) : (zext16 (a + b)).toNat = (a.toNat + b.toNat) % 256 := by
  rw [zext16_toNat, BitVec.toNat_add]

@[simp] theorem ea_zeroPage (zp : Byte) (s : State) : ea (.zeroPage zp) s = zext16 zp := rfl

@[simp] theorem ea_zeroPageX (zp : Byte) (s : State) : ea (.zeroPageX zp) s = zext16 (zp + s.x) := rfl

@[simp] theorem ea_zeroPageY (zp : Byte) (s : State) : ea (.zeroPageY zp) s = zext16 (zp + s.y) := rfl

@[simp] theorem ea_absolute (addr : Word) (s : State) : ea (.absolute addr) s = addr := rfl

/-- The four modes whose address is computed from the operand and an index alone give it in any memory. -/
theorem ea_setMem_of_zeroPage_or_absolute {d : MemOperand} {zp : Byte} {addr : Word}
    (hd : d ∈ [MemOperand.zeroPage zp, .zeroPageX zp, .zeroPageY zp, .absolute addr]) (s : State) (m : Memory) :
    ea d (s.setMem m) = ea d s := by
  obtain rfl | rfl | rfl | rfl : d = .zeroPage zp ∨ d = .zeroPageX zp ∨ d = .zeroPageY zp ∨ d = .absolute addr := by
    simpa using hd
  · simp only [ea_zeroPage]
  · simp only [ea_zeroPageX, State.setMem_x]
  · simp only [ea_zeroPageY, State.setMem_y]
  · simp only [ea_absolute]

@[simp] theorem readOperand_accumulator (s : State) : readOperand .accumulator s = s.a := rfl

@[simp] theorem readOperand_immediate (v : Byte) (s : State) : readOperand (.immediate v) s = v := rfl

@[simp] theorem readOperand_mem (m : MemOperand) (s : State) : readOperand (.mem m) s = s.read (ea m s) := rfl

/-- Settles O14, from the address of each mode and the value of an extended byte sum. -/
theorem zeroPageAndAbsoluteAddresses : Obligations.ZeroPageAndAbsoluteAddresses := by
  intro s zp addr
  have wraps (hx : s.x = 0x02) : ea (.zeroPageX 0xFF) s = 0x0001 := by
    rw [ea_zeroPageX, hx]
    decide
  exact ⟨zext16_toNat zp, zext16_add_toNat zp s.x, zext16_add_toNat zp s.y, wraps, ea_absolute addr s,
    fun m _ hd => ea_setMem_of_zeroPage_or_absolute hd s m⟩

/-- Settles O17, mode by mode. -/
theorem operandsAreReadByMode : Obligations.OperandsAreReadByMode := fun s v m =>
  ⟨readOperand_accumulator s, readOperand_immediate v s, readOperand_mem m s⟩

end Sys2Proof.Proofs.Addressing

/-! PROOFS. Rules for the words the statements are written in (the forms of a mnemonic, frames, Z and N, memory
unchanged): what each write to the state gives of them. -/

namespace Sys2Proof.Proofs.Frames

open Sys2Proof.Machine Sys2Proof.Claims

/-- The table by mnemonic of R113 lists a mnemonic's forms. -/
theorem hasForms_opcodesOf (m : Mnemonic) : HasForms m (opcodesOf m) := fun _ _ =>
  ⟨Catalog.mem_opcodesOf_of_lookupByMode,
    fun h => Catalog.lookupByOpcode_eq_ok_iff_lookupByMode.1 (Catalog.lookupByOpcode_of_mem_opcodesOf h)⟩

theorem memSame_of_mem_eq {s t : State} (h : t.mem = s.mem) : MemSame s t := fun a => congrArg (·.read a) h

/-- What two changes in a row may touch is what either of them may touch. -/
theorem frame_trans {regs regs' : List RegKey} {flags flags' : List Flag} {s t u : State}
    (h : Frame regs flags s t) (h' : Frame regs' flags' t u) : Frame (regs ++ regs') (flags ++ flags') s u where
  regs r hr hf := by
    obtain ⟨h1, h2⟩ := not_or.1 (mt List.mem_append.2 hr)
    exact (h'.regs r h2 hf).trans (h.regs r h1 hf)
  flags f hf := by
    obtain ⟨h1, h2⟩ := not_or.1 (mt List.mem_append.2 hf)
    exact (h'.flags f h2).trans (h.flags f h1)
  engine := h'.engine.trans h.engine

theorem reg_setP_of_ne {k : RegKey} (h : k ≠ .flags) (s : State) (v : Byte) : (s.setP v).reg k = s.reg k := by
  cases k with
  | flags => exact absurd rfl h
  | _ => rfl

theorem reg_write (s : State) (addr : Word) (v : Byte) (k : RegKey) : (s.write addr v).reg k = s.reg k := by
  cases k <;> rfl

/-- `SetZN` leaves every register and every bit of P but Z and N alone (43_arith_logic.md R230). -/
theorem frame_setZN (v : Byte) (s : State) : Frame [] [.z, .n] s (s.setZN v) where
  regs _ _ hf := reg_setP_of_ne hf s _
  flags f hf := by
    obtain ⟨hz, hn⟩ : f ≠ .z ∧ f ≠ .n := by simpa using hf
    simp [State.flag, hz, hn]
  engine := rfl

/-- After `SetZN` of a byte Z and N follow it (43_arith_logic.md R230). -/
theorem znFollow_setZN (v : Byte) (s : State) : ZNFollow v (s.setZN v) := by
  constructor
  · simp [State.flag, beq_eq_decide]
  · simp [State.flag, BitVec.msb_eq_decide]

/-- A memory write touches no register, no bit of P and not the engine (20_memory.md R72). -/
theorem frame_write (s : State) (addr : Word) (v : Byte) : Frame [] [] s (s.write addr v) where
  regs r _ _ := reg_write s addr v r
  flags _ _ := rfl
  engine := rfl

theorem memSameOutside_write (s : State) (addr : Word) (v : Byte) : MemSameOutside [addr] s (s.write addr v) :=
  fun _ ha => State.read_write_other s (List.ne_of_not_mem_cons ha) v

/-- `set` writes the one-byte register of the given key, which `get` reads, and nothing else. -/
structure WritesRegister (key : RegKey) (get : State → Byte) (set : State → Byte → State) : Prop where
  get_set : ∀ s v, get (set s v) = v
  get_setZN : ∀ s v, get (s.setZN v) = get s
  reg_of_ne : ∀ {k} s v, k ≠ key → (set s v).reg k = s.reg k
  p : ∀ s v, (set s v).p = s.p
  mem : ∀ s v, (set s v).mem = s.mem
  engine : ∀ s v, (set s v).engine = s.engine

theorem writesRegister_setA : WritesRegister .a State.a State.setA where
  get_set := State.setA_a
  get_setZN := State.setZN_a
  reg_of_ne {k} s v h := by
    cases k with
    | a => exact absurd rfl h
    | _ => rfl
  p := State.setA_p
  mem := State.setA_mem
  engine := State.setA_engine

theorem writesRegister_setX : WritesRegister .x State.x State.setX where
  get_set := State.setX_x
  get_setZN := State.setZN_x
  reg_of_ne {k} s v h := by
    cases k with
    | x => exact absurd rfl h
    | _ => rfl
  p := State.setX_p
  mem := State.setX_mem
  engine := State.setX_engine

theorem writesRegister_setY : WritesRegister .y State.y State.setY where
  get_set := State.setY_y
  get_setZN := State.setZN_y
  reg_of_ne {k} s v h := by
    cases k with
    | y => exact absurd rfl h
    | _ => rfl
  p := State.setY_p
  mem := State.setY_mem
  engine := State.setY_engine

section

variable {key : RegKey} {get : State → Byte} {set : State → Byte → State} (w : WritesRegister key get set)
include w

theorem WritesRegister.frame (s : State) (v : Byte) : Frame [key] [] s (set s v) where
  regs _ hr _ := w.reg_of_ne s v (List.ne_of_not_mem_cons hr)
  flags f _ := congrArg (testFlag f) (w.p s v)
  engine := w.engine s v

/-- The register written and `SetZN` of the same byte: the effect of every load and transfer. -/
theorem WritesRegister.set_setZN (s : State) (v : Byte) :
    get ((set s v).setZN v) = v ∧ ZNFollow v ((set s v).setZN v) ∧ Frame [key] [.z, .n] s ((set s v).setZN v) ∧
      MemSame s ((set s v).setZN v) :=
  ⟨(w.get_setZN _ v).trans (w.get_set s v), znFollow_setZN v _, frame_trans (w.frame s v) (frame_setZN v _),
    memSame_of_mem_eq (w.mem s v)⟩

end

end Sys2Proof.Proofs.Frames

/-! PROOFS. Loads, stores and transfers (41_load_store_transfer.md R170 to R184): each of the three shapes once, for any
register, then the mnemonics. -/

namespace Sys2Proof.Proofs.LoadStore

open Sys2Proof.Machine Sys2Proof.Claims Sys2Proof.Proofs.Frames

/-- A mnemonic that reads its operand into a register and sets Z and N from it is a load. -/
theorem isLoad_of_effect {m : Mnemonic} {key : RegKey} {get : State → Byte} {set : State → Byte → State}
    {load : Source → State → State} (w : WritesRegister key get set)
    (hm : m ∈ [.lda, .ldx, .ldy, .adc, .sbc, .and, .ora, .eor, .cmp, .cpx, .cpy, .bit])
    (heff : ∀ o s, effect m o s = onSource load o s)
    (hload : ∀ src s, load src s = (set s (readOperand src s)).setZN (readOperand src s)) : IsLoad m key get := by
  rintro i s rfl
  obtain ⟨src, hsrc⟩ := source_of i hm
  have hexec : exec i s = .next ((set s (readOperand src s)).setZN (readOperand src s)) := by
    rw [exec_eq, heff, onSource_some hsrc, hload]
  exact ⟨src, _, hsrc, hexec, w.set_setZN s _⟩

/-- A mnemonic that writes a register to its operand's effective address, and does no more, is a store. -/
theorem isStore_of_effect {m : Mnemonic} {get : State → Byte} {store : MemOperand → State → State}
    (hm : m ∈ [.sta, .stx, .sty, .jmp, .jsr, .inc, .dec]) (heff : ∀ o s, effect m o s = onMem store o s)
    (hstore : ∀ d s, store d s = s.write (ea d s) (get s)) : IsStore m get := by
  rintro i s rfl
  obtain ⟨d, hd⟩ := mem_of i hm
  have hexec : exec i s = .next (s.write (ea d s) (get s)) := by rw [exec_eq, heff, onMem_some hd, hstore]
  exact ⟨d, _, hd, hexec, fun hinv => State.read_write_same hinv _ _, frame_write s _ _, memSameOutside_write s _ _⟩

/-- An instruction that copies one register to another and sets Z and N from it is a transfer. -/
theorem isTransfer_of_exec {i : Instr} {src dst : State → Byte} {key : RegKey} {set : State → Byte → State}
    (w : WritesRegister key dst set) (hexec : ∀ s, exec i s = .next ((set s (src s)).setZN (src s))) :
    IsTransfer i src dst key := fun s =>
  ⟨_, hexec s, w.set_setZN s (src s)⟩

/-- Settles O18: each of the three reads its operand into its register. -/
theorem loadsWriteTheirRegister : Obligations.LoadsWriteTheirRegister :=
  ⟨hasForms_opcodesOf .lda, hasForms_opcodesOf .ldx, hasForms_opcodesOf .ldy,
    isLoad_of_effect writesRegister_setA (by decide) (fun _ _ => rfl) (fun _ _ => rfl),
    isLoad_of_effect writesRegister_setX (by decide) (fun _ _ => rfl) (fun _ _ => rfl),
    isLoad_of_effect writesRegister_setY (by decide) (fun _ _ => rfl) (fun _ _ => rfl)⟩

/-- Settles O19: each of the three is one memory write at the effective address. -/
theorem storesWriteOneByte : Obligations.StoresWriteOneByte :=
  ⟨hasForms_opcodesOf .sta, hasForms_opcodesOf .stx, hasForms_opcodesOf .sty,
    isStore_of_effect (by decide) (fun _ _ => rfl) (fun _ _ => rfl),
    isStore_of_effect (by decide) (fun _ _ => rfl) (fun _ _ => rfl),
    isStore_of_effect (by decide) (fun _ _ => rfl) (fun _ _ => rfl)⟩

/-- Settles O20: each of the five copies its source into its destination. -/
theorem transfersCopyARegister : Obligations.TransfersCopyARegister :=
  ⟨hasForms_opcodesOf .tax, hasForms_opcodesOf .tay, hasForms_opcodesOf .txa, hasForms_opcodesOf .tya,
    hasForms_opcodesOf .tsx,
    isTransfer_of_exec writesRegister_setX (exec_eq .tax), isTransfer_of_exec writesRegister_setY (exec_eq .tay),
    isTransfer_of_exec writesRegister_setA (exec_eq .txa), isTransfer_of_exec writesRegister_setA (exec_eq .tya),
    isTransfer_of_exec writesRegister_setX (exec_eq .tsx)⟩

end Sys2Proof.Proofs.LoadStore

/-! PROOFS. The stack controller (42_stack.md R200, R201): what a push and a pull of one byte leave behind. -/

namespace Sys2Proof.Proofs.Stack

open Sys2Proof.Machine Sys2Proof.Claims Sys2Proof.Proofs.Frames

/-- The stack slot, as the rules R200 and R201 write its address. -/
theorem stackSlot_eq_ofNat (sp : Byte) : stackSlot sp = BitVec.ofNat 16 (0x0100 + sp.toNat) := by
  rw [← stackSlot_toNat, BitVec.ofNat_toNat, BitVec.setWidth_eq]

theorem sub_one_toNat {sp : Byte} (h : sp ≠ 0x00) : (sp - 1).toNat = sp.toNat - 1 := by bv_omega

theorem add_one_toNat {sp : Byte} (h : sp ≠ 0xFF) : (sp + 1).toNat = sp.toNat + 1 := by bv_omega

theorem stackSlot_add_one_eq_ofNat {sp : Byte} (h : sp ≠ 0xFF) :
    stackSlot (sp + 1) = BitVec.ofNat 16 (0x0100 + sp.toNat + 1) := by
  rw [stackSlot_eq_ofNat, add_one_toNat h, Nat.add_assoc]

theorem writesRegister_setSp : WritesRegister .sp State.sp State.setSp where
  get_set := State.setSp_sp
  get_setZN := State.setZN_sp
  reg_of_ne {k} s v h := by
    cases k with
    | sp => exact absurd rfl h
    | _ => rfl
  p := State.setSp_p
  mem := State.setSp_mem
  engine := State.setSp_engine

/-- A push that does not fault: SP is one less, the slot holds the byte, and all else stands (42_stack.md R200). -/
theorem push_effect {s : State} (h : s.sp ≠ 0x00) (v : Byte) :
    ∃ t, push v s = .done () t ∧ t.sp.toNat = s.sp.toNat - 1 ∧ (s.Inv → t.read (stackSlot s.sp) = v) ∧
      Frame [.sp] [] s t ∧ MemSameOutside [stackSlot s.sp] s t :=
  ⟨_, push_done h v, sub_one_toNat h, fun hinv => State.read_write_same hinv _ v,
    frame_trans (frame_write s _ v) (writesRegister_setSp.frame _ _), memSameOutside_write s _ v⟩

/-- A pull that does not fault: the byte one slot up is returned, SP is one more, and all else stands
(42_stack.md R201). -/
theorem pull_effect {s : State} (h : s.sp ≠ 0xFF) :
    ∃ t, pull s = .done (s.read (stackSlot (s.sp + 1))) t ∧ t.sp.toNat = s.sp.toNat + 1 ∧ Frame [.sp] [] s t ∧
      MemSame s t :=
  ⟨_, pull_done h, add_one_toNat h, writesRegister_setSp.frame s _, memSame_of_mem_eq (State.setSp_mem s _)⟩

/-- Settles O22: the fault cases and the effects of the two operations, their slots written as R200 and R201 do. -/
theorem pushAndPullOfOneByte : Obligations.PushAndPullOfOneByte := by
  intro s v
  refine ⟨fun h => push_overflow h v, fun h => ?_, pull_underflow, fun h => ?_⟩
  · rw [← stackSlot_eq_ofNat]
    exact push_effect h v
  · rw [← stackSlot_add_one_eq_ofNat h]
    exact pull_effect h

end Sys2Proof.Proofs.Stack

/-! PROOFS. Logical instructions, increments and decrements (43_arith_logic.md R245 to R247, R260 to R265): each of the
three shapes once, then the mnemonics. -/

namespace Sys2Proof.Proofs.ArithLogic

open Sys2Proof.Machine Sys2Proof.Claims Sys2Proof.Proofs.Frames

theorem add_one_toNat_mod (v : Byte) : (v + 1).toNat = (v.toNat + 1) % 256 := BitVec.toNat_add v 1

/-- One less mod 256, written without a subtraction of naturals. -/
theorem sub_one_toNat_mod (v : Byte) : (v - 1).toNat = (v.toNat + 255) % 256 := by bv_omega

/-- A mnemonic that combines A with its operand, writes A and sets Z and N from it is a logical instruction. -/
theorem isLogical_of_effect {m : Mnemonic} {op : Byte → Byte → Byte} {combine : Source → State → State}
    (hm : m ∈ [.lda, .ldx, .ldy, .adc, .sbc, .and, .ora, .eor, .cmp, .cpx, .cpy, .bit])
    (heff : ∀ o s, effect m o s = onSource combine o s)
    (hcombine : ∀ src s, combine src s =
      (s.setA (op s.a (readOperand src s))).setZN (op s.a (readOperand src s))) : IsLogical m op := by
  rintro i s rfl
  obtain ⟨src, hsrc⟩ := source_of i hm
  have hexec : exec i s = .next ((s.setA (op s.a (readOperand src s))).setZN (op s.a (readOperand src s))) := by
    rw [exec_eq, heff, onSource_some hsrc, hcombine]
  exact ⟨src, _, hsrc, hexec, writesRegister_setA.set_setZN s _⟩

/-- A byte written to memory and `SetZN` of the same byte: the effect of a memory increment or decrement. -/
theorem write_setZN (s : State) (addr : Word) (v : Byte) :
    ZNFollow v ((s.write addr v).setZN v) ∧ (s.Inv → ((s.write addr v).setZN v).read addr = v) ∧
      Frame [] [.z, .n] s ((s.write addr v).setZN v) ∧ MemSameOutside [addr] s ((s.write addr v).setZN v) := by
  have hmem : MemSame (s.write addr v) ((s.write addr v).setZN v) := memSame_of_mem_eq (State.setZN_mem _ v)
  exact ⟨znFollow_setZN v _, fun hinv => (hmem addr).trans (State.read_write_same hinv addr v),
    frame_trans (frame_write s addr v) (frame_setZN v _),
    fun a ha => (hmem a).trans (memSameOutside_write s addr v a ha)⟩

/-- A mnemonic that replaces the byte at its effective address by its image under `f`, which is `op` mod 256, and sets Z
and N from it is a memory step. -/
theorem isMemoryStep_of_effect {m : Mnemonic} {op : Nat → Nat} {f : Byte → Byte} {update : Dest → State → State}
    (hm : m ∈ [.sta, .stx, .sty, .jmp, .jsr, .inc, .dec]) (heff : ∀ o s, effect m o s = onDest update o s)
    (hupdate : ∀ d s, update (.mem d) s = (s.write (ea d s) (f (s.read (ea d s)))).setZN (f (s.read (ea d s))))
    (hf : ∀ v, (f v).toNat = op v.toNat % 256) : IsMemoryStep m op := by
  rintro i s rfl
  obtain ⟨d, hd⟩ := mem_of i hm
  have hexec : exec i s = .next ((s.write (ea d s) (f (s.read (ea d s)))).setZN (f (s.read (ea d s)))) := by
    rw [exec_eq, heff, onDest_some (dest_of_mem hd), hupdate]
  have hval : f (s.read (ea d s)) = BitVec.ofNat 8 (op (s.read (ea d s)).toNat % 256) := by
    rw [← hf, BitVec.ofNat_toNat, BitVec.setWidth_eq]
  exact ⟨d, _, _, hd, hexec, hval, write_setZN s _ _⟩

/-- An instruction that replaces a register by its image under `f`, which is `op` mod 256, and sets Z and N from it is a
register step. -/
theorem isRegisterStep_of_exec {i : Instr} {op : Nat → Nat} {f : Byte → Byte} {key : RegKey} {get : State → Byte}
    {set : State → Byte → State} (w : WritesRegister key get set)
    (hexec : ∀ s, exec i s = .next ((set s (f (get s))).setZN (f (get s))))
    (hf : ∀ v, (f v).toNat = op v.toNat % 256) : IsRegisterStep i get key op := by
  intro s
  obtain ⟨hget, hzn, hframe, hmem⟩ := w.set_setZN s (f (get s))
  refine ⟨_, hexec s, ?_, ?_, hframe, hmem⟩
  · rw [hget, hf]
  · rwa [hget]

/-- Settles O30: each of the three writes A, combined with the operand, into A. -/
theorem logicalInstructionsCombineIntoA : Obligations.LogicalInstructionsCombineIntoA :=
  ⟨hasForms_opcodesOf .and, hasForms_opcodesOf .ora, hasForms_opcodesOf .eor,
    isLogical_of_effect (by decide) (fun _ _ => rfl) (fun _ _ => rfl),
    isLogical_of_effect (by decide) (fun _ _ => rfl) (fun _ _ => rfl),
    isLogical_of_effect (by decide) (fun _ _ => rfl) (fun _ _ => rfl)⟩

/-- Settles O33: each of the two reads and writes one byte at one effective address. -/
theorem incAndDecStepAMemoryByte : Obligations.IncAndDecStepAMemoryByte :=
  ⟨hasForms_opcodesOf .inc, hasForms_opcodesOf .dec,
    isMemoryStep_of_effect (f := (· + 1)) (by decide) (fun _ _ => rfl) (fun _ _ => rfl) add_one_toNat_mod,
    isMemoryStep_of_effect (f := (· - 1)) (by decide) (fun _ _ => rfl) (fun _ _ => rfl) sub_one_toNat_mod⟩

/-- Settles O34: each of the four writes X or Y, one more or one less, into itself. -/
theorem registerIncrementsAndDecrements : Obligations.RegisterIncrementsAndDecrements :=
  ⟨hasForms_opcodesOf .inx, hasForms_opcodesOf .iny, hasForms_opcodesOf .dex, hasForms_opcodesOf .dey,
    isRegisterStep_of_exec (f := (· + 1)) writesRegister_setX (exec_eq .inx) add_one_toNat_mod,
    isRegisterStep_of_exec (f := (· + 1)) writesRegister_setY (exec_eq .iny) add_one_toNat_mod,
    isRegisterStep_of_exec (f := (· - 1)) writesRegister_setX (exec_eq .dex) sub_one_toNat_mod,
    isRegisterStep_of_exec (f := (· - 1)) writesRegister_setY (exec_eq .dey) sub_one_toNat_mod⟩

end Sys2Proof.Proofs.ArithLogic

/-! PROOFS. Shifts and rotates (44_shift_rotate.md R280 to R288): what an ALU shift gives, once for the four; what the
instruction on it does in each of its two kinds of operand; then the mnemonics. -/

namespace Sys2Proof.Proofs.ShiftRotate

open Sys2Proof.Machine Sys2Proof.Claims Sys2Proof.Proofs.Frames

theorem shiftOperand_accumulator (alu : Byte → Byte → AluOut) (s : State) :
    shiftOperand alu .accumulator s = (s.setP (alu s.a s.p).p).setA (alu s.a s.p).result := rfl

/-- The effective address is the one of the state before: the new P has no part in it (40_addressing.md R160). -/
theorem shiftOperand_mem (alu : Byte → Byte → AluOut) (m : MemOperand) (s : State) :
    shiftOperand alu (.mem m) s =
      (s.setP (alu (s.read (ea m s)) s.p).p).write (ea m s) (alu (s.read (ea m s)) s.p).result := by
  unfold shiftOperand
  rw [writeOperand_mem, ea_setP]
  rfl

theorem shiftOperand_p (alu : Byte → Byte → AluOut) (d : Dest) (s : State) :
    (shiftOperand alu d s).p = (alu (readOperand d.source s) s.p).p := by
  cases d <;> rfl

/-- An ALU shift of a byte `v` under a carry `c`: the result is `res v c`, C becomes `out v`, Z and N follow the result,
and no other bit of P is written. -/
structure ShiftsBy (alu : Byte → Byte → AluOut) (res : Nat → Nat → Nat) (out : Nat → Bool) : Prop where
  result : ∀ v p, (alu v p).result.toNat = res v.toNat (testFlag .c p).toNat
  testFlag_p : ∀ g v p, testFlag g (alu v p).p =
    if g = .n then (alu v p).result.msb else if g = .z then (alu v p).result == 0
    else if g = .c then out v.toNat else testFlag g p

section

variable {alu : Byte → Byte → AluOut} {res : Nat → Nat → Nat} {out : Nat → Bool} (h : ShiftsBy alu res out)
include h

theorem ShiftsBy.carry (v p : Byte) : testFlag .c (alu v p).p = out v.toNat := by simp [h.testFlag_p]

theorem ShiftsBy.znFollow {v p : Byte} {t : State} (ht : t.p = (alu v p).p) : ZNFollow (alu v p).result t := by
  constructor
  · simp [State.flag, ht, h.testFlag_p, beq_eq_decide]
  · simp [State.flag, ht, h.testFlag_p, BitVec.msb_eq_decide]

/-- The new P of a shift leaves every register and every bit but C, Z and N alone. -/
theorem ShiftsBy.frame_setP (v : Byte) (s : State) : Frame [] [.c, .z, .n] s (s.setP (alu v s.p).p) where
  regs _ _ hf := reg_setP_of_ne hf s _
  flags f hf := by
    obtain ⟨hc, hz, hn⟩ : f ≠ .c ∧ f ≠ .z ∧ f ≠ .n := by simpa using hf
    simp [State.flag, h.testFlag_p, hc, hz, hn]
  engine := rfl

/-- In Accumulator mode the result goes to A and no memory changes. -/
theorem ShiftsBy.accumulator (s : State) :
    (shiftOperand alu .accumulator s).a = (alu s.a s.p).result ∧
      Frame [.a] [.c, .z, .n] s (shiftOperand alu .accumulator s) ∧ MemSame s (shiftOperand alu .accumulator s) := by
  rw [shiftOperand_accumulator]
  exact ⟨rfl, frame_trans (h.frame_setP s.a s) (writesRegister_setA.frame _ _), memSame_of_mem_eq rfl⟩

/-- In the memory modes the result goes to the effective address and nothing else in memory changes. -/
theorem ShiftsBy.mem (m : MemOperand) (s : State) :
    (s.Inv → (shiftOperand alu (.mem m) s).read (ea m s) = (alu (s.read (ea m s)) s.p).result) ∧
      Frame [] [.c, .z, .n] s (shiftOperand alu (.mem m) s) ∧
      MemSameOutside [ea m s] s (shiftOperand alu (.mem m) s) := by
  rw [shiftOperand_mem]
  exact ⟨fun hinv => State.read_write_same (s := s.setP _) hinv _ _,
    frame_trans (h.frame_setP _ s) (frame_write _ _ _), memSameOutside_write (s.setP _) _ _⟩

end

/-- A mnemonic that shifts its operand in the ALU and writes the result back to it is a shift. -/
theorem isShift_of_effect {m : Mnemonic} {alu : Byte → Byte → AluOut} {res : Nat → Nat → Nat} {out : Nat → Bool}
    (hm : m ∈ [.inc, .dec, .asl, .lsr, .rol, .ror]) (heff : ∀ o s, effect m o s = onDest (shiftOperand alu) o s)
    (h : ShiftsBy alu res out) : IsShift m res out := by
  rintro i s rfl
  obtain ⟨d, hd⟩ := dest_of i hm
  have hexec : exec i s = .next (shiftOperand alu d s) := by rw [exec_eq, heff, onDest_some hd]
  have hp := shiftOperand_p alu d s
  have hval : (alu (readOperand d.source s) s.p).result =
      BitVec.ofNat 8 (res (readOperand d.source s).toNat (s.flag .c).toNat) := by
    rw [State.flag, ← h.result, BitVec.ofNat_toNat, BitVec.setWidth_eq]
  refine ⟨d, _, _, hd, hexec, hval, ?_, h.znFollow hp, ?_, ?_⟩
  · rw [State.flag, hp, h.carry]
  · rintro rfl
    exact h.accumulator s
  · rintro o rfl
    exact h.mem o s

/-! The numbers of the four shifts. -/

theorem shiftLeft_one_toNat (v : Byte) : (v <<< 1).toNat = 2 * v.toNat % 256 := by bv_omega

theorem shiftRight_one_toNat (v : Byte) : (v >>> 1).toNat = v.toNat / 2 := by bv_omega

theorem bit7_eq_decide (v : Byte) : v.getLsbD 7 = decide (128 ≤ v.toNat) := BitVec.msb_eq_decide v

theorem bit0_eq_decide (v : Byte) : v.getLsbD 0 = decide (v.toNat % 2 = 1) := Nat.testBit_zero v.toNat

/-- Bytes with no set bit in common combine as they add. -/
theorem or_toNat_of_and_eq_zero {x y : Byte} (h : x &&& y = 0) : (x ||| y).toNat = x.toNat + y.toNat := by
  rw [← BitVec.add_eq_or_of_and_eq_zero x y h, BitVec.toNat_add_of_and_eq_zero h]

/-- A left shift leaves bit 0 free for the carry (44_shift_rotate.md R282). -/
theorem shiftLeft_one_or_carry_toNat (v : Byte) (c : Bool) :
    ((v <<< 1) ||| (if c then 0x01 else 0x00)).toNat = 2 * v.toNat % 256 + c.toNat := by
  cases c with
  | false => simpa using shiftLeft_one_toNat v
  | true =>
    have hfree : v <<< 1 &&& 0x01 = 0 := by decide +revert
    exact (or_toNat_of_and_eq_zero hfree).trans (congrArg (· + 1) (shiftLeft_one_toNat v))

/-- A right shift leaves bit 7 free for the carry (44_shift_rotate.md R283). -/
theorem shiftRight_one_or_carry_toNat (v : Byte) (c : Bool) :
    ((v >>> 1) ||| (if c then 0x80 else 0x00)).toNat = v.toNat / 2 + 128 * c.toNat := by
  cases c with
  | false => simpa using shiftRight_one_toNat v
  | true =>
    have hfree : v >>> 1 &&& 0x80 = 0 := by decide +revert
    exact (or_toNat_of_and_eq_zero hfree).trans (congrArg (· + 128) (shiftRight_one_toNat v))

theorem shiftsBy_aluShl : ShiftsBy aluShl (fun v _ => 2 * v % 256) (fun v => decide (128 ≤ v)) where
  result v _ := shiftLeft_one_toNat v
  testFlag_p g v p := by rw [testFlag_aluShl, bit7_eq_decide]

theorem shiftsBy_aluShr : ShiftsBy aluShr (fun v _ => v / 2) (fun v => decide (v % 2 = 1)) where
  result v _ := shiftRight_one_toNat v
  testFlag_p g v p := by rw [testFlag_aluShr, bit0_eq_decide]

theorem shiftsBy_aluRol : ShiftsBy aluRol (fun v c => 2 * v % 256 + c) (fun v => decide (128 ≤ v)) where
  result v p := shiftLeft_one_or_carry_toNat v (testFlag .c p)
  testFlag_p g v p := by rw [testFlag_aluRol, bit7_eq_decide]

theorem shiftsBy_aluRor : ShiftsBy aluRor (fun v c => v / 2 + 128 * c) (fun v => decide (v % 2 = 1)) where
  result v p := shiftRight_one_or_carry_toNat v (testFlag .c p)
  testFlag_p g v p := by rw [testFlag_aluRor, bit0_eq_decide]

/-- Settles O35: each of the four is its ALU shift on the operand, written back. -/
theorem shiftsAndRotates : Obligations.ShiftsAndRotates :=
  ⟨hasForms_opcodesOf .asl, hasForms_opcodesOf .lsr, hasForms_opcodesOf .rol, hasForms_opcodesOf .ror,
    isShift_of_effect (by decide) (fun _ _ => rfl) shiftsBy_aluShl,
    isShift_of_effect (by decide) (fun _ _ => rfl) shiftsBy_aluShr,
    isShift_of_effect (by decide) (fun _ _ => rfl) shiftsBy_aluRol,
    isShift_of_effect (by decide) (fun _ _ => rfl) shiftsBy_aluRor⟩

end Sys2Proof.Proofs.ShiftRotate

/-! PROOFS. Conditional branches (45_control.md R305 to R313): the shape once, for any bit and value, then the
mnemonics; and the two displacements that are worth a name. -/

namespace Sys2Proof.Proofs.Branches

open Sys2Proof.Machine Sys2Proof.Claims Sys2Proof.Proofs.Frames

@[simp] theorem ea_relative (disp : Byte) (s : State) : ea (.relative disp) s = s.pc + sext16 disp := rfl

theorem reg_setPc_of_ne {k : RegKey} (h : k ≠ .pc) (s : State) (v : Word) : (s.setPc v).reg k = s.reg k := by
  cases k with
  | pc => exact absurd rfl h
  | _ => rfl

/-- A new PC leaves every other register, every bit of P and the engine alone. -/
theorem frame_setPc (s : State) (v : Word) : Frame [.pc] [] s (s.setPc v) where
  regs _ hr _ := reg_setPc_of_ne (List.ne_of_not_mem_cons hr) s v
  flags _ _ := rfl
  engine := rfl

theorem frame_refl (regs : List RegKey) (flags : List Flag) (s : State) : Frame regs flags s s where
  regs _ _ _ := rfl
  flags _ _ := rfl
  engine := rfl

theorem branch_taken {cond : Bool} (h : cond = true) (disp : Byte) (s : State) :
    branch cond disp s = s.setPc (ea (.relative disp) s) := if_pos h

theorem branch_not_taken {cond : Bool} (h : ¬ cond = true) (disp : Byte) (s : State) : branch cond disp s = s :=
  if_neg h

/-- Taken or not, a branch touches nothing but PC (45_control.md R305). -/
theorem branch_frame (cond : Bool) (disp : Byte) (s : State) :
    Frame [.pc] [] s (branch cond disp s) ∧ MemSame s (branch cond disp s) := by
  by_cases h : cond = true
  · rw [branch_taken h]
    exact ⟨frame_setPc s _, memSame_of_mem_eq (State.setPc_mem s _)⟩
  · rw [branch_not_taken h]
    exact ⟨frame_refl _ _ s, memSame_of_mem_eq rfl⟩

/-- A mnemonic that branches on a condition which says that one bit of P has one value is a branch on that bit. -/
theorem isBranch_of_effect {m : Mnemonic} {f : Flag} {when : Bool} {cond : State → Bool}
    (hm : m ∈ [.bcc, .bcs, .beq, .bne, .bmi, .bpl, .bvc, .bvs])
    (heff : ∀ o s, effect m o s = onBranch (cond s) o s) (hcond : ∀ s, cond s = true ↔ s.flag f = when) :
    IsBranch m f when := by
  rintro i s rfl
  obtain ⟨disp, hdisp⟩ := branch_of i hm
  have hexec : exec i s = .next (branch (cond s) disp s) := by
    rw [exec_eq, heff, hdisp]
    rfl
  refine ⟨disp, _, hdisp, hexec, fun h => ?_, fun h => ?_, branch_frame (cond s) disp s⟩
  · rw [branch_taken ((hcond s).2 h), State.setPc_pc]
  · rw [branch_not_taken (mt (hcond s).1 h)]

/-- A mnemonic whose condition is a bit of P branches when that bit is set. -/
theorem isBranch_set {m : Mnemonic} {f : Flag} (hm : m ∈ [.bcc, .bcs, .beq, .bne, .bmi, .bpl, .bvc, .bvs])
    (heff : ∀ o s, effect m o s = onBranch (s.flag f) o s) : IsBranch m f true :=
  isBranch_of_effect hm heff fun _ => Iff.rfl

/-- A mnemonic whose condition is the negation of a bit of P branches when that bit is clear. -/
theorem isBranch_clear {m : Mnemonic} {f : Flag} (hm : m ∈ [.bcc, .bcs, .beq, .bne, .bmi, .bpl, .bvc, .bvs])
    (heff : ∀ o s, effect m o s = onBranch (!s.flag f) o s) : IsBranch m f false :=
  isBranch_of_effect hm heff fun s => iff_of_eq (Bool.not_eq_true' (s.flag f))

/-- PC is past the branch when its address is computed, so displacement 0x00 is the next instruction. -/
theorem ea_relative_zero (s : State) : ea (.relative 0x00) s = s.pc := BitVec.add_zero s.pc

/-- Displacement 0xFE is -2: the branch itself, which is two bytes long. -/
theorem ea_relative_minus_two (s : State) : ea (.relative 0xFE) s + 2 = s.pc := by
  have hcancel : sext16 0xFE + 2 = 0#16 := by decide
  rw [ea_relative, BitVec.add_assoc, hcancel, BitVec.add_zero]

/-- Settles O41: each of the eight branches on one bit of P, set or clear. -/
theorem branchesTestOneFlag : Obligations.BranchesTestOneFlag :=
  ⟨hasForms_opcodesOf .bcc, hasForms_opcodesOf .bcs, hasForms_opcodesOf .beq, hasForms_opcodesOf .bne,
    hasForms_opcodesOf .bmi, hasForms_opcodesOf .bpl, hasForms_opcodesOf .bvc, hasForms_opcodesOf .bvs,
    isBranch_clear (by decide) (fun _ _ => rfl), isBranch_set (by decide) (fun _ _ => rfl),
    isBranch_set (by decide) (fun _ _ => rfl), isBranch_clear (by decide) (fun _ _ => rfl),
    isBranch_set (by decide) (fun _ _ => rfl), isBranch_clear (by decide) (fun _ _ => rfl),
    isBranch_clear (by decide) (fun _ _ => rfl), isBranch_set (by decide) (fun _ _ => rfl),
    fun s => ⟨ea_relative_zero s, ea_relative_minus_two s⟩⟩

end Sys2Proof.Proofs.Branches

/-! PROOFS. Flag-only instructions (46_system_flags.md R335 to R341): what the write of one bit of P gives, once for any
bit and value, then the instructions. -/

namespace Sys2Proof.Proofs.SystemFlags

open Sys2Proof.Machine Sys2Proof.Claims Sys2Proof.Proofs.Frames

@[simp] theorem flag_setFlag (f g : Flag) (v : Bool) (s : State) :
    (s.setFlag f v).flag g = if g = f then v else s.flag g :=
  testFlag_writeFlag f g v s.p

/-- The write of one bit of P leaves every other bit, every register and the engine alone (10_state.md R39). -/
theorem frame_setFlag (f : Flag) (v : Bool) (s : State) : Frame [] [f] s (s.setFlag f v) where
  regs _ _ hf := reg_setP_of_ne hf s _
  flags _ hg := (flag_setFlag f _ v s).trans (if_neg (List.ne_of_not_mem_cons hg))
  engine := State.setFlag_engine s f v

/-- An instruction whose whole effect is to write one bit of P is a flag write. -/
theorem isFlagWrite_of_exec {i : Instr} {f : Flag} {v : Bool} (hexec : ∀ s, exec i s = .next (s.setFlag f v)) :
    IsFlagWrite i f v := fun s =>
  ⟨_, hexec s, (flag_setFlag f f v s).trans (if_pos rfl), frame_setFlag f v s,
    memSame_of_mem_eq (State.setFlag_mem s f v)⟩

/-- Settles O49: each of the seven writes its own bit of P, and does no more. -/
theorem flagInstructionsWriteOneBit : Obligations.FlagInstructionsWriteOneBit :=
  ⟨hasForms_opcodesOf .clc, hasForms_opcodesOf .cld, hasForms_opcodesOf .cli, hasForms_opcodesOf .clv,
    hasForms_opcodesOf .sec, hasForms_opcodesOf .sed, hasForms_opcodesOf .sei,
    isFlagWrite_of_exec (exec_eq .clc), isFlagWrite_of_exec (exec_eq .cld), isFlagWrite_of_exec (exec_eq .cli),
    isFlagWrite_of_exec (exec_eq .clv), isFlagWrite_of_exec (exec_eq .sec), isFlagWrite_of_exec (exec_eq .sed),
    isFlagWrite_of_exec (exec_eq .sei)⟩

end Sys2Proof.Proofs.SystemFlags

/-! PROOFS. Decode and encode (30_encoding.md R110 to R124): what decode answers by the row of the first byte, and that
decode and encode undo each other. -/

namespace Sys2Proof.Proofs.Decoding

open Sys2Proof.Machine

theorem instrLength_of_row {b : Byte} {r : CatalogRow} (hr : catalogRow? b = some r) :
    instrLength b = 1 + r.mode.operandBytes := by
  simp [instrLength, hr]

/-- A buffer with enough operand bytes for the row of its first byte decodes to what the row's format assembles. -/
theorem decode_cons_of_row {b : Byte} {r : CatalogRow} (hr : catalogRow? b = some r) {tail : List Byte}
    (hlen : r.mode.operandBytes ≤ tail.length) :
    decode (b :: tail) = .ok (r.format.assemble bufferFetch tail) := by
  have hlong : instrLength b ≤ tail.length + 1 := by
    rw [instrLength_of_row hr]
    omega
  simp [decode, hlong, decodeFrom, bufferFetch, hr]

theorem decode_cons_of_short {b : Byte} {r : CatalogRow} (hr : catalogRow? b = some r) {tail : List Byte}
    (hlen : tail.length < r.mode.operandBytes) : decode (b :: tail) = .error .truncated := by
  have hshort : (b :: tail).length < instrLength b := by
    rw [instrLength_of_row hr, List.length_cons]
    omega
  exact if_pos hshort

theorem decode_cons_of_no_row {b : Byte} (hr : catalogRow? b = none) (tail : List Byte) :
    decode (b :: tail) = .error (.unknownOpcode b) := by
  have hlong : instrLength b ≤ tail.length + 1 := by simp [instrLength, hr]
  simp [decode, hlong, decodeFrom, bufferFetch, hr]

/-- What a buffer decodes to is assembled by the row of its first byte from operand bytes that are all there. -/
theorem row_of_decode {bytes : List Byte} {p : Instr × List Byte} (h : decode bytes = .ok p) :
    ∃ b tail r, bytes = b :: tail ∧ catalogRow? b = some r ∧ r.mode.operandBytes ≤ tail.length ∧
      r.format.assemble bufferFetch tail = p := by
  obtain _ | ⟨b, tail⟩ := bytes
  · nomatch h
  · cases hr : catalogRow? b with
    | none => simp [decode_cons_of_no_row hr] at h
    | some r =>
      by_cases hlen : r.mode.operandBytes ≤ tail.length
      · rw [decode_cons_of_row hr hlen] at h
        exact ⟨b, tail, r, rfl, hr, hlen, Except.ok.inj h⟩
      · simp [decode_cons_of_short hr (not_le.1 hlen)] at h

theorem operandBytes_length (md : Mode) (w : Word) : (operandBytes md w).length = md.operandBytes := by
  cases md <;> rfl

/-- A format reads back the instruction it builds from that instruction's operand bytes. -/
theorem assemble_of_builds {f : Format} {i : Instr} (h : f.Builds i) (rest : List Byte) :
    f.assemble bufferFetch (operandBytes i.mode i.operand.value ++ rest) = (i, rest) := by
  cases f with
  | f1 j =>
    obtain ⟨rfl, hn⟩ := h
    simp [operandBytes, hn, Format.assemble_f1]
  | f2 mk =>
    obtain ⟨⟨b, rfl, hv⟩, hn⟩ := h
    simp [operandBytes, hn, hv, Format.assemble_f2]
  | f3 mk =>
    obtain ⟨hmk, hn⟩ := h
    simp [operandBytes, hn, Format.assemble_f3, hmk]

theorem decode_encode (i : Instr) (rest : List Byte) : decode (encode i ++ rest) = .ok (i, rest) := by
  obtain ⟨f, hrow, hf⟩ := i.row
  have hlen : i.mode.operandBytes ≤ (operandBytes i.mode i.operand.value ++ rest).length := by
    simp [operandBytes_length]
  rw [encode, List.cons_append, decode_cons_of_row hrow hlen, assemble_of_builds hf]

/-- The table by mnemonic of R113 has each instruction's opcode byte. -/
theorem lookupByMode_of_instr (i : Instr) : lookupByMode i.mnemonic i.mode = .ok i.opcode := by
  obtain ⟨f, hrow, -⟩ := i.row
  exact Catalog.lookupByMode_of_mem_catalog (mem_of_catalogRow? hrow).1

theorem encodeRecord_record (i : Instr) : encodeRecord i.record = .ok (encode i) := by
  simp only [encodeRecord, Instr.record, lookupByMode_of_instr, encode]

/-- Settles O2: an instruction's row reads the instruction back from its bytes, and both tables have its opcode byte. -/
theorem decodeOfEncodeIsTheInstruction : Obligations.DecodeOfEncodeIsTheInstruction := fun i rest =>
  ⟨decode_encode i rest, encodeRecord_record i⟩

/-- What a format builds from the number its operand bytes give. -/
def build (f : Format) (w : Word) : Instr :=
  match f with
  | .f1 i => i
  | .f2 mk => mk (loByte w)
  | .f3 mk => mk w

/-- The number as far as a format has operand bytes for it. -/
def operandOf (f : Format) (w : Word) : Word :=
  match f with
  | .f1 _ => 0
  | .f2 _ => zext16 (loByte w)
  | .f3 _ => w

/-- How many operand bytes a format has (30_encoding.md R100). -/
def formatBytes (f : Format) : Nat :=
  match f with
  | .f1 _ => 0
  | .f2 _ => 1
  | .f3 _ => 2

/-- A row's format has as many operand bytes as its mode says (30_encoding.md R101). -/
theorem operandBytes_of_mem_catalog {r : CatalogRow} (hr : r ∈ catalog) :
    r.mode.operandBytes = formatBytes r.format := by
  have rows : catalog.map (fun r => r.mode.operandBytes) = catalog.map (fun r => formatBytes r.format) := rfl
  exact List.map_inj_left.1 rows r hr

/-- A row builds instructions of its own opcode byte and mode, and drops no operand bit (30_encoding.md R104, R110). -/
theorem build_of_mem_catalog {r : CatalogRow} (hr : r ∈ catalog) (w : Word) :
    (build r.format w).opcode = r.opcode ∧ (build r.format w).mode = r.mode ∧
      (build r.format w).operand.value = operandOf r.format w := by
  have opcodes : catalog.map (fun r w => (build r.format w).opcode) = catalog.map (fun r _ => r.opcode) := rfl
  have modes : catalog.map (fun r w => (build r.format w).mode) = catalog.map (fun r _ => r.mode) := rfl
  have values : catalog.map (fun r w => (build r.format w).operand.value) =
      catalog.map (fun r w => operandOf r.format w) := rfl
  exact ⟨congrFun (List.map_inj_left.1 opcodes r hr) w, congrFun (List.map_inj_left.1 modes r hr) w,
    congrFun (List.map_inj_left.1 values r hr) w⟩

theorem encode_build {r : CatalogRow} (hr : r ∈ catalog) (w : Word) :
    encode (build r.format w) = r.opcode :: operandBytes r.mode (operandOf r.format w) := by
  obtain ⟨hop, hmode, hvalue⟩ := build_of_mem_catalog hr w
  rw [encode, hop, hmode, hvalue]

theorem loByte_concat (hi lo : Byte) : loByte (concat hi lo) = lo := by
  apply BitVec.eq_of_toNat_eq
  rw [loByte_toNat, concat_toNat]
  omega

theorem hiByte_concat (hi lo : Byte) : hiByte (concat hi lo) = hi := by
  apply BitVec.eq_of_toNat_eq
  rw [hiByte_toNat, concat_toNat]
  omega

/-- What a format assembles from a buffer it builds from the number whose operand bytes it has read. -/
theorem assemble_eq_build {f : Format} {md : Mode} (hmd : md.operandBytes = formatBytes f) {tail : List Byte}
    (hlen : md.operandBytes ≤ tail.length) :
    ∃ w rest, f.assemble bufferFetch tail = (build f w, rest) ∧ tail = operandBytes md (operandOf f w) ++ rest := by
  rw [hmd] at hlen
  cases f with
  | f1 i => exact ⟨0, tail, rfl, by simp [operandBytes, hmd, formatBytes]⟩
  | f2 mk =>
    obtain _ | ⟨b, rest⟩ := tail
    · simp [formatBytes] at hlen
    · refine ⟨zext16 b, rest, ?_, ?_⟩
      · rw [Format.assemble_f2, build, loByte_zext16]
      · simp [operandBytes, hmd, formatBytes, operandOf]
  | f3 mk =>
    obtain _ | ⟨lo, _ | ⟨hi, rest⟩⟩ := tail
    · simp [formatBytes] at hlen
    · simp [formatBytes] at hlen
    · exact ⟨concat hi lo, rest, rfl, by simp [operandBytes, hmd, formatBytes, operandOf, loByte_concat, hiByte_concat]⟩

/-- Settles O3: a row assembles only what it builds, and what it builds has the row's opcode byte and the operand bytes
that were read. -/
theorem decodedBytesAreTheEncoding : Obligations.DecodedBytesAreTheEncoding := by
  intro bytes i rest h
  obtain ⟨b, tail, r, rfl, hrow, hlen, hasm⟩ := row_of_decode h
  obtain ⟨hr, rfl⟩ := mem_of_catalogRow? hrow
  obtain ⟨w, rest', hbuild, rfl⟩ := assemble_eq_build (operandBytes_of_mem_catalog hr) hlen
  obtain ⟨rfl, rfl⟩ : build r.format w = i ∧ rest' = rest := Prod.mk.inj (hbuild.symm.trans hasm)
  rw [encode_build hr, List.cons_append]

theorem catalogRow?_eq_none_iff {b : Byte} : catalogRow? b = none ↔ b ∉ catalog.map (·.opcode) := by
  simp [catalogRow?]

theorem lookupByOpcode_eq_error_iff {b : Byte} :
    lookupByOpcode b = .error (.unknownOpcode b) ↔ catalogRow? b = none := by
  unfold lookupByOpcode
  cases catalogRow? b <;> simp

/-- Settles O5: the catalog has no row for exactly the 105 bytes; where the lookup finds no row, decode finds none. -/
theorem undefinedOpcodeBytesAreThe105 : Obligations.UndefinedOpcodeBytesAreThe105 := fun b =>
  ⟨(lookupByOpcode_eq_error_iff.trans catalogRow?_eq_none_iff).trans (by revert b; decide +kernel),
    fun h => decode_cons_of_no_row (lookupByOpcode_eq_error_iff.1 h)⟩

/-- Settles O1: each of the thirteen strings is the encoding of its instruction and a byte after it; the other two
begin with a byte that has no row. -/
theorem handWrittenWordsDecode : Obligations.HandWrittenWordsDecode :=
  ⟨decode_encode (.ldaImm 0x05) _, decode_encode (.ldxZpY 0xF0) _, decode_encode (.staAbs 0x0200) _,
    decode_encode .pha _, decode_encode (.adcIndY 0x40) _, decode_encode (.cmpIndX 0x20) _, decode_encode .aslAcc _,
    decode_encode (.rorAbsX 0x10FF) _, decode_encode (.jmpInd 0x10FF) _, decode_encode (.jsrAbs 0x0005) _,
    decode_encode (.bne 0xFB) _, decode_encode .brk _, decode_encode .clv _, decode_cons_of_no_row rfl _,
    decode_cons_of_no_row rfl _⟩

end Sys2Proof.Proofs.Decoding

/-! PROOFS. The step (60_exceptions.md R380, R381): what it can answer, said once; then what follows for every step, and
the step from a Faulted engine. -/

namespace Sys2Proof.Proofs.Stepping

open Sys2Proof.Machine Sys2Proof.Claims Sys2Proof.Proofs.Frames Sys2Proof.Proofs.Decoding

theorem step_faulted {s : State} {f : Fault} (h : s.engine = .faulted f) : step s = .fault f := by
  simp [step, h]

theorem alive_iff {s : State} : s.alive = true ↔ ∀ f, s.engine ≠ .faulted f := by
  unfold State.alive
  cases s.engine <;> simp

theorem faulted_of_not_alive {s : State} (h : ¬ s.alive = true) : ∃ f, s.engine = .faulted f := by
  simpa [alive_iff] using h

theorem step_of_alive {s : State} (h : s.alive = true) : step s = stepInstr s.resume :=
  step_eq_stepInstr (alive_iff.1 h)

theorem stepInstr_of_instr {s s' : State} {i : Instr} (h : fetchDecode s = .instr i s') : stepInstr s = exec i s' := by
  rw [stepInstr, h]

theorem stepInstr_of_unknownOpcode {s s' : State} {b : Byte} (h : fetchDecode s = .unknownOpcode b s') :
    stepInstr s = .next (raiseFault (.unknownOpcode b) s') := by
  rw [stepInstr, h]

/-- One instruction executed is the effect of some instruction after a move of PC, or an unknown opcode's fault. -/
theorem stepInstr_cases (s : State) :
    (∃ i pc, stepInstr s = exec i (s.setPc pc)) ∨
      stepInstr s = .next (raiseFault (.unknownOpcode (s.read s.pc)) (s.setPc (s.pc + 1))) := by
  obtain ⟨i, pc, h⟩ | ⟨-, h⟩ := fetchDecode_moves_pc s
  · exact .inl ⟨i, pc, stepInstr_of_instr h⟩
  · exact .inr (stepInstr_of_unknownOpcode h)

/-- Every instruction has a meaning, so one instruction executed always gives a next state. -/
theorem stepInstr_answers (s : State) : ∃ t, stepInstr s = .next t := by
  obtain ⟨i, pc, h⟩ | h := stepInstr_cases s
  · exact ⟨_, h.trans (exec_eq i _)⟩
  · exact ⟨_, h⟩

/-- Settles O9: the step executes one instruction. -/
theorem aliveEngineAlwaysAnswers : Obligations.AliveEngineAlwaysAnswers := by
  intro s h
  rw [step_of_alive h]
  exact stepInstr_answers s.resume

/-- A step that answers a next state executes an instruction after a move of PC, or raises the unknown opcode. -/
theorem step_cases {s t : State} (h : step s = .next t) :
    (∃ i pc, exec i (s.resume.setPc pc) = .next t) ∨
      t = raiseFault (.unknownOpcode (s.read s.pc)) (s.resume.setPc (s.pc + 1)) := by
  by_cases ha : s.alive = true
  · rw [step_of_alive ha] at h
    obtain ⟨i, pc, he⟩ | he := stepInstr_cases s.resume
    · exact .inl ⟨i, pc, he.symm.trans h⟩
    · exact .inr (Host.Outcome.next.inj (h.symm.trans he))
  · obtain ⟨f, hf⟩ := faulted_of_not_alive ha
    simp [step_faulted hf] at h

/-- Every step keeps what every write to the state keeps. -/
theorem step_kept {P : State → Prop} (k : KeptAll P) {s t : State} (hs : P s) (h : step s = .next t) : P t := by
  have hrun : ∀ pc, P (s.resume.setPc pc) := fun pc => k.setPc _ pc (k.setEngine _ _ hs)
  obtain ⟨i, pc, hexec⟩ | rfl := step_cases h
  · rw [exec_eq] at hexec
    exact Host.Outcome.next.inj hexec ▸ effect_kept k i.mnemonic i.operand (hrun pc)
  · exact k.setEngine _ (.faulted _) (hrun (s.pc + 1))

/-- The canonical form of memory is kept by every write (20_memory.md R72). -/
theorem inv_keptAll : KeptAll State.Inv where
  toKept := mem_wf_kept
  setA _ _ h := h
  setX _ _ h := h
  setY _ _ h := h

/-- Settles O10: each write to the state keeps the canonical form, and a step is made of such writes. -/
theorem stepKeepsTheInvariant : Obligations.StepKeepsTheInvariant := fun _ _ => step_kept inv_keptAll

/-- The bus at PC reads what a buffer with the two bytes there reads, and PC moves past as many as the format has. -/
theorem assemble_bus (f : Format) (s : State) :
    f.assemble fetch s = ((f.assemble bufferFetch [s.read s.pc, s.read (s.pc + 1)]).1,
      s.setPc (s.pc + BitVec.ofNat 16 (formatBytes f))) := by
  cases f with
  | f1 i => simp [Format.assemble, formatBytes, State.setPc]
  | f2 mk => rfl
  | f3 mk => rw [Format.assemble_bus_f3, Format.assemble_f3, BitVec.add_assoc]; rfl

theorem fetchDecode_of_row {s : State} {r : CatalogRow} (h : catalogRow? (s.read s.pc) = some r) :
    fetchDecode s = .instr (r.format.assemble fetch (s.setPc (s.pc + 1))).1
      (r.format.assemble fetch (s.setPc (s.pc + 1))).2 := by
  simp [fetchDecode, decodeFrom, h]

theorem fetchDecode_of_no_row {s : State} (h : catalogRow? (s.read s.pc) = none) :
    fetchDecode s = .unknownOpcode (s.read s.pc) (s.setPc (s.pc + 1)) := by
  simp [fetchDecode, decodeFrom, h]

/-- What the three bytes at PC decode to in a buffer, they decode to over the bus, with PC past its bytes. -/
theorem fetchDecode_of_decode {s : State} {i : Instr} {rest : List Byte}
    (h : decode [s.read s.pc, s.read (s.pc + 1), s.read (s.pc + 2)] = .ok (i, rest)) :
    fetchDecode s = .instr i (s.setPc (s.pc + BitVec.ofNat 16 i.length)) := by
  obtain ⟨b, tail, r, hbytes, hrow, hlen, hasm⟩ := row_of_decode h
  obtain ⟨rfl, rfl⟩ := List.cons.inj hbytes
  obtain ⟨hr, -⟩ := mem_of_catalogRow? hrow
  have hformat := operandBytes_of_mem_catalog hr
  obtain ⟨w, rest', hbuild, -⟩ := assemble_eq_build hformat hlen
  have hi : build r.format w = i := congrArg Prod.fst (hbuild.symm.trans hasm)
  obtain ⟨-, hmode, -⟩ := build_of_mem_catalog hr w
  have hlength : i.length = 1 + formatBytes r.format := by
    rw [← hi, Instr.length, hmode, hformat]
  have hsecond : s.pc + 1 + 1 = s.pc + 2 := BitVec.add_assoc s.pc 1 1
  rw [fetchDecode_of_row hrow, assemble_bus, hlength, BitVec.ofNat_add, ← BitVec.add_assoc]
  simp only [State.setPc_pc, hsecond]
  exact congrArg (Decoded.instr · _) (congrArg Prod.fst hasm)

/-- Settles O6: over the bus the step decodes what the buffer of the three bytes decodes to. -/
theorem stepRunsTheDecodedInstruction : Obligations.StepRunsTheDecodedInstruction := by
  intro s i rest ha h
  rw [step_of_alive ha]
  exact stepInstr_of_instr (fetchDecode_of_decode (s := s.resume) h)

/-- Settles O7: with no row for the byte, decode gives the fault after one move of PC. -/
theorem unknownOpcodeStopsTheEngine : Obligations.UnknownOpcodeStopsTheEngine := by
  intro s ha h
  have hdecode := fetchDecode_of_no_row (s := s.resume) (lookupByOpcode_eq_error_iff.1 h)
  exact ⟨_, (step_of_alive ha).trans (stepInstr_of_unknownOpcode hdecode), rfl, rfl, rfl, rfl, rfl, rfl, rfl, rfl,
    memSame_of_mem_eq rfl⟩

/-- Settles O11: the reset state is one value, read field by field. -/
theorem resetStateIsAsTheSpecSays : Obligations.ResetStateIsAsTheSpecSays :=
  ⟨reset_mem_wf, rfl, Memory.read_nil, rfl, rfl⟩

/-- Settles O48: NOP's effect is the state it is given, and a step at its byte only moves PC. -/
theorem nopChangesNothing : Obligations.NopChangesNothing := by
  refine ⟨hasForms_opcodesOf .nop, exec_eq .nop, fun s hrun hbyte => ?_⟩
  have hdecode : decode [s.read s.pc, s.read (s.pc + 1), s.read (s.pc + 2)] =
      .ok (.nop, [s.read (s.pc + 1), s.read (s.pc + 2)]) := by
    rw [hbyte]
    exact decode_encode .nop _
  have ha : s.alive = true := alive_iff.2 (by simp [hrun])
  rw [stepRunsTheDecodedInstruction s .nop _ ha hdecode, exec_eq]
  exact congrArg Host.Outcome.next (State.ext_fields rfl rfl rfl rfl rfl rfl rfl hrun.symm)

end Sys2Proof.Proofs.Stepping

/-! PROOFS. Memory read after write (20_memory.md R71, R72), and the four instructions that push or pull one byte
(42_stack.md R204 to R213). -/

namespace Sys2Proof.Proofs.OneByteStack

open Sys2Proof.Machine Sys2Proof.Claims Sys2Proof.Proofs.Frames Sys2Proof.Proofs.Stack

/-- Settles O12, from the laws of the canonical memory. -/
theorem memoryReadsBackWhatIsWritten : Obligations.MemoryReadsBackWhatIsWritten := by
  intro s a v hinv
  refine ⟨State.read_write_same hinv a v, memSameOutside_write s a v, Memory.write_wf hinv a v, fun b w hb => ?_⟩
  rw [State.read_write_other _ hb.symm, State.read_write_same hinv]

/-- A larger list of what may change is a weaker frame. -/
theorem frame_mono {regs regs' : List RegKey} {flags flags' : List Flag} {s t : State} (h : Frame regs flags s t)
    (hregs : regs ⊆ regs') (hflags : flags ⊆ flags') : Frame regs' flags' s t where
  regs r hr := h.regs r fun hmem => hr (hregs hmem)
  flags f hf := h.flags f fun hmem => hf (hflags hmem)
  engine := h.engine

theorem frame_setSp (s : State) (v : Byte) : Frame [.sp] [] s (s.setSp v) := writesRegister_setSp.frame s v

/-- `PullFlags` writes every bit of P but B, and no other register (42_stack.md R205). -/
theorem frame_setP_restoredP (b : Byte) (s : State) :
    Frame [] [.c, .z, .i, .d, .u, .v, .n] s (s.setP (restoredP b s.p)) where
  regs _ _ hf := reg_setP_of_ne hf s _
  flags f hf := by
    have hb : f = .b := by cases f <;> simp at hf ⊢
    simp [State.flag, testFlag_restoredP, hb]
  engine := rfl

theorem finish_of_done {t : Attempt Unit} {u : State} (h : t = .done () u) : t.finish = u := by
  rw [h, Attempt.finish_done]

theorem finish_of_raised {t : Attempt Unit} {f : Fault} {u : State} (h : t = .raised f u) :
    t.finish = raiseFault f u := by
  rw [h, Attempt.finish_raised]

theorem sub_one_add_one (b : Byte) : b - 1 + 1 = b := BitVec.sub_add_cancel b 1

/-- Settles O23: the pull reads the slot the push wrote. -/
theorem pushThenPullGivesTheByteBack : Obligations.PushThenPullGivesTheByteBack := by
  intro s v hinv hsp
  have hnot : s.sp - 1 ≠ 0xFF := by bv_omega
  refine ⟨_, (s.write (stackSlot s.sp) v).setSp s.sp, push_done hsp v, ?_, rfl, rfl⟩
  rw [pull_done hnot]
  simp only [State.setSp_sp, sub_one_add_one]
  exact congrArg (Attempt.done · _) (State.read_write_same hinv _ v)

/-- The byte `PushFlags` pushes: P with bit 4 set (42_stack.md R204). -/
theorem pushFlags_eq (s : State) : pushFlags s = push (insertFlag .b s.p) s := rfl

/-- An instruction whose whole effect is one push leaves what that push leaves. -/
theorem exec_of_push {i : Instr} {s : State} {v : Byte} (hexec : exec i s = .next (push v s).finish)
    (hsp : s.sp ≠ 0x00) :
    ∃ t, exec i s = .next t ∧ t.sp.toNat = s.sp.toNat - 1 ∧ (s.Inv → t.read (stackSlot s.sp) = v) ∧
      Frame [.sp] [] s t ∧ MemSameOutside [stackSlot s.sp] s t := by
  obtain ⟨t, hpush, heffect⟩ := push_effect hsp v
  exact ⟨t, by rw [hexec, finish_of_done hpush], heffect⟩

/-- Settles O24: each of the two is one push. -/
theorem phaAndPhpPush : Obligations.PhaAndPhpPush := by
  refine ⟨hasForms_opcodesOf .pha, hasForms_opcodesOf .php, fun s hsp => ⟨exec_of_push (exec_eq .pha s) hsp, ?_⟩⟩
  obtain ⟨t, hexec, htop, hslot, hframe, hmem⟩ := exec_of_push (exec_eq .php s) hsp
  refine ⟨t, hexec, htop, fun hinv => ?_, hframe, hmem⟩
  rw [hslot hinv]
  exact ⟨by simp [testFlag_insertFlag], fun f hf => by simp [testFlag_insertFlag, hf, State.flag]⟩

theorem doPla_done {s : State} (h : s.sp ≠ 0xFF) :
    doPla s = ((s.setSp (s.sp + 1)).setA (s.read (stackSlot (s.sp + 1)))).setZN (s.read (stackSlot (s.sp + 1))) := by
  rw [doPla, pull_done h, Attempt.andThen_done, Attempt.finish_done]

theorem pullFlags_done {s : State} (h : s.sp ≠ 0xFF) :
    pullFlags s = .done () ((s.setSp (s.sp + 1)).setP (restoredP (s.read (stackSlot (s.sp + 1))) s.p)) := by
  rw [pullFlags, pull_done h, Attempt.andThen_done, State.setSp_p]

/-- Settles O25: the byte one slot up goes to A, or to every bit of P but B. -/
theorem plaAndPlpPull : Obligations.PlaAndPlpPull := by
  refine ⟨hasForms_opcodesOf .pla, hasForms_opcodesOf .plp, fun s hsp => ⟨?_, ?_⟩⟩
  · have hexec : exec .pla s = .next (doPla s) := exec_eq .pla s
    rw [doPla_done hsp] at hexec
    obtain ⟨ha, hzn, hframe, hmem⟩ := writesRegister_setA.set_setZN (s.setSp (s.sp + 1)) (s.read (stackSlot (s.sp + 1)))
    exact ⟨_, hexec, add_one_toNat hsp, ha, ha.symm ▸ hzn, frame_trans (frame_setSp s _) hframe, hmem⟩
  · have hexec : exec .plp s = .next (pullFlags s).finish := exec_eq .plp s
    rw [finish_of_done (pullFlags_done hsp)] at hexec
    refine ⟨_, hexec, add_one_toNat hsp, ?_, fun f hf => ?_,
      frame_trans (frame_setSp s _) (frame_setP_restoredP _ _), memSame_of_mem_eq rfl⟩
    · simp [State.flag, testFlag_restoredP]
    · simp [State.flag, testFlag_restoredP, hf]

theorem faultsUntouched_of_exec {i : Instr} {f : Fault} {s : State} (h : exec i s = .next (raiseFault f s)) :
    FaultsUntouched i f s :=
  ⟨_, h, rfl, rfl, memSame_of_mem_eq rfl⟩

theorem doPla_underflow {s : State} (h : s.sp = 0xFF) : doPla s = raiseFault .stackUnderflow s := by
  rw [doPla, pull_underflow h, Attempt.andThen_raised, Attempt.finish_raised]

theorem pullFlags_underflow {s : State} (h : s.sp = 0xFF) : pullFlags s = .raised .stackUnderflow s := by
  rw [pullFlags, pull_underflow h, Attempt.andThen_raised]

/-- Settles O26: the one push or pull of each raises its fault with nothing done. -/
theorem oneByteStackFaults : Obligations.OneByteStackFaults := by
  refine fun s => ⟨fun h => ⟨faultsUntouched_of_exec ?_, faultsUntouched_of_exec ?_⟩,
    fun h => ⟨faultsUntouched_of_exec ?_, faultsUntouched_of_exec ?_⟩⟩
  · exact (exec_eq .pha s).trans (congrArg _ (finish_of_raised (push_overflow h s.a)))
  · exact (exec_eq .php s).trans (congrArg _ (finish_of_raised (push_overflow h _)))
  · exact (exec_eq .pla s).trans (congrArg _ (doPla_underflow h))
  · exact (exec_eq .plp s).trans (congrArg _ (finish_of_raised (pullFlags_underflow h)))

end Sys2Proof.Proofs.OneByteStack

/-! PROOFS. Jumps, calls and returns (45_control.md R300 to R302): what a word pushed or pulled leaves behind, in full
and at the ends of the stack; then the instructions. -/

namespace Sys2Proof.Proofs.Calls

open Sys2Proof.Machine Sys2Proof.Claims Sys2Proof.Proofs.Frames Sys2Proof.Proofs.Stack Sys2Proof.Proofs.OneByteStack
  Sys2Proof.Proofs.Branches

/-- JSR and RTS add nothing to the PC they push or pull (45_control.md R301, R302). -/
theorem offset_zero (w : Word) : w + 0 = w := BitVec.add_zero w

theorem ea_indirect (w : Word) (s : State) : ea (.indirect w) s = concat (s.read (w + 1)) (s.read w) := rfl

/-- Settles O36: JMP writes its effective address to PC. -/
theorem jumpsSetPc : Obligations.JumpsSetPc := by
  refine ⟨hasForms_opcodesOf .jmp, ?_, fun s w => ⟨rfl, ea_indirect w s⟩, fun s hlo hhi => ?_⟩
  · intro i s hm
    obtain ⟨m, hop⟩ := mem_of i (by simp [hm])
    have hexec : exec i s = .next (s.setPc (ea m s)) := by
      rw [exec_eq, hm, effect, onMem_some hop, doJmp]
    exact ⟨m, _, hop, hexec, rfl, frame_setPc s _, memSame_of_mem_eq rfl⟩
  · refine ⟨_, exec_eq (.jmpInd 0x10FF) s, ?_⟩
    calc ea (.indirect 0x10FF) s
      _ = concat (s.read 0x1100) (s.read 0x10FF) := ea_indirect 0x10FF s
      _ = 0x1234 := by rw [hlo, hhi]; rfl

/-- The slot below another one is another one. -/
theorem stackSlot_sub_one_ne (sp : Byte) : stackSlot sp ≠ stackSlot (sp - 1) := stackSlot_ne (by bv_omega)

/-- A word pushed in full: its bytes in two slots, high byte first, and all else as it stands (42_stack.md R202). -/
theorem pushPc_effect {s : State} (h : 2 ≤ s.sp.toNat) (off : Word) :
    ∃ t, pushPc off s = .done () t ∧ t.sp = s.sp - 2 ∧
      (s.Inv → t.read (stackSlot s.sp) = hiByte (s.pc + off) ∧ t.read (stackSlot (s.sp - 1)) = loByte (s.pc + off)) ∧
      Frame [.sp] [] s t ∧ MemSameOutside [stackSlot s.sp, stackSlot (s.sp - 1)] s t := by
  refine ⟨_, pushPc_done h off, rfl, fun hinv => ⟨?_, ?_⟩,
    frame_trans (frame_trans (frame_write s _ _) (frame_write _ _ _)) (frame_setSp _ _), fun a ha => ?_⟩
  · exact (State.read_write_other _ (stackSlot_sub_one_ne s.sp) _).trans (State.read_write_same hinv _ _)
  · exact State.read_write_same (Memory.write_wf hinv _ _) _ _
  · obtain ⟨h1, h2⟩ : a ≠ stackSlot s.sp ∧ a ≠ stackSlot (s.sp - 1) := by simpa using ha
    exact (State.read_write_other _ h2 _).trans (State.read_write_other s h1 _)

theorem doJsr_of_done {s t : State} (h : pushPc 0 s = .done () t) (target : Word) :
    doJsr (.absolute target) s = t.setPc target := by
  rw [doJsr, h]
  rfl

theorem doJsr_of_raised {s t : State} {f : Fault} (h : pushPc 0 s = .raised f t) (target : Word) :
    doJsr (.absolute target) s = raiseFault f t := by
  rw [doJsr, h]
  rfl

theorem exec_jsrAbs (target : Word) (s : State) : exec (.jsrAbs target) s = .next (doJsr (.absolute target) s) :=
  exec_eq (.jsrAbs target) s

theorem exec_rts (s : State) : exec .rts s = .next (pullPc 0 s).finish := exec_eq .rts s

/-- Settles O37: the word pushed in full, then PC. -/
theorem jsrPushesTheReturnAddress : Obligations.JsrPushesTheReturnAddress := by
  refine ⟨hasForms_opcodesOf .jsr, fun s target hsp => ?_⟩
  obtain ⟨t, hpush, htop, hslots, hframe, hmem⟩ := pushPc_effect hsp 0
  have hexec := exec_jsrAbs target s
  rw [doJsr_of_done hpush] at hexec
  refine ⟨_, hexec, rfl, ?_, fun hinv => ?_, frame_mono (frame_trans hframe (frame_setPc t target)) (by simp) (by simp),
    hmem⟩
  · rw [State.setPc_sp, htop]
    bv_omega
  · obtain ⟨hhi, hlo⟩ := hslots hinv
    rw [offset_zero] at hhi hlo
    exact ⟨(congrArg BitVec.toNat hhi).trans (hiByte_toNat s.pc), (congrArg BitVec.toNat hlo).trans (loByte_toNat s.pc)⟩

/-- Settles O38: the word pulled in full, with nothing added. -/
theorem rtsPullsTheReturnAddress : Obligations.RtsPullsTheReturnAddress := by
  refine ⟨hasForms_opcodesOf .rts, fun s hsp => ?_⟩
  have hexec := exec_rts s
  rw [finish_of_done (pullPc_done hsp 0)] at hexec
  refine ⟨_, hexec, ?_, ?_, frame_mono (frame_trans (frame_setSp s _) (frame_setPc _ _)) (by simp) (by simp),
    memSame_of_mem_eq rfl⟩
  · rw [State.setPc_pc, offset_zero, concat_toNat]
  · rw [State.setPc_sp, State.setSp_sp]
    bv_omega

theorem zext16_inj {a b : Byte} (h : zext16 a = zext16 b) : a = b := by
  have := congrArg BitVec.toNat h
  rw [Addressing.zext16_toNat, Addressing.zext16_toNat] at this
  exact BitVec.eq_of_toNat_eq this

/-- Registers that only PC, SP and the bits of P may tell apart are equal when those are. -/
theorem registers_eq {regs : List RegKey} {flags : List Flag} {s t : State} (h : Frame regs flags s t)
    (ha : RegKey.a ∉ regs) (hx : RegKey.x ∉ regs) (hy : RegKey.y ∉ regs) (hpc : t.pc = s.pc) (hsp : t.sp = s.sp)
    (hp : t.p = s.p) : t.registers = s.registers := by
  have hA : t.a = s.a := zext16_inj (h.regs .a ha (by decide))
  have hX : t.x = s.x := zext16_inj (h.regs .x hx (by decide))
  have hY : t.y = s.y := zext16_inj (h.regs .y hy (by decide))
  simp [State.registers, hpc, hsp, hp, hA, hX, hY]

/-- Settles O39: what RTS reads is what JSR pushed, and neither touches more than PC and SP. -/
theorem jsrThenRtsComesBack : Obligations.JsrThenRtsComesBack := by
  intro s target hinv hsp
  obtain ⟨t, hjsr, htpc, htsp, hslots, hframe, -⟩ := jsrPushesTheReturnAddress.2 s target hsp
  obtain ⟨u, hrts, hupc, husp, hframe', -⟩ := rtsPullsTheReturnAddress.2 t (by have := s.sp.isLt; omega)
  obtain ⟨hhi, hlo⟩ := hslots hinv
  have hframe := frame_trans hframe hframe'
  have hup : t.sp + 2 = s.sp ∧ t.sp + 1 = s.sp - 1 := by constructor <;> bv_omega
  have hpc : u.pc = s.pc := by
    apply BitVec.eq_of_toNat_eq
    rw [hupc, hup.1, hup.2, hhi, hlo, Nat.mul_comm, Nat.div_add_mod]
  have hspEq : u.sp = s.sp := by bv_omega
  have hp : u.p = s.p := eq_of_testFlag fun f => hframe.flags f (by simp)
  exact ⟨t, u, hjsr, htpc, hrts, registers_eq hframe (by decide) (by decide) (by decide) hpc hspEq hp, hframe.engine⟩

theorem pushPc_overflow {s : State} (h : s.sp = 0x00) (off : Word) : pushPc off s = .raised .stackOverflow s := by
  rw [pushPc, push_overflow h, Attempt.andThen_raised]

/-- With room for one byte the high byte is pushed and the low byte faults (42_stack.md R202, R206). -/
theorem pushPc_overflow_low {s : State} (h : s.sp = 0x01) (off : Word) :
    pushPc off s = .raised .stackOverflow ((s.write 0x0101 (hiByte (s.pc + off))).setSp 0x00) := by
  have hsp : s.sp ≠ 0x00 := by rw [h]; decide
  have hslot : stackSlot s.sp = 0x0101 := by rw [h]; rfl
  have htop : s.sp - 1 = 0x00 := by rw [h]; rfl
  rw [pushPc, push_done hsp, Attempt.andThen_done, hslot, htop, push_overflow rfl]

theorem pullPc_underflow {s : State} (h : s.sp = 0xFF) (off : Word) : pullPc off s = .raised .stackUnderflow s := by
  rw [pullPc, pull_underflow h, Attempt.andThen_raised]

/-- With one byte on the stack the low byte is pulled and the high byte faults (42_stack.md R203, R206). -/
theorem pullPc_underflow_high {s : State} (h : s.sp = 0xFE) (off : Word) :
    pullPc off s = .raised .stackUnderflow (s.setSp 0xFF) := by
  have hsp : s.sp ≠ 0xFF := by rw [h]; decide
  have htop : s.sp + 1 = 0xFF := by rw [h]; rfl
  rw [pullPc, pull_done hsp, Attempt.andThen_done, htop, pull_underflow rfl, Attempt.andThen_raised]

/-- Settles O40: the four places where one of the two bytes finds no room or no byte. -/
theorem callAndReturnFaults : Obligations.CallAndReturnFaults := by
  refine fun s target => ⟨fun h => ?_, fun h => ?_, fun h => ?_, fun h => ?_⟩
  · have hjsr := doJsr_of_raised (pushPc_overflow h 0) target
    exact faultsUntouched_of_exec ((exec_jsrAbs target s).trans (congrArg _ hjsr))
  · have hexec := exec_jsrAbs target s
    rw [doJsr_of_raised (pushPc_overflow_low h 0), offset_zero] at hexec
    refine ⟨_, hexec, rfl, rfl, rfl, rfl, rfl, rfl, rfl, fun hinv => ?_, memSameOutside_write s _ _⟩
    exact (congrArg BitVec.toNat (State.read_write_same hinv 0x0101 _)).trans (hiByte_toNat s.pc)
  · exact faultsUntouched_of_exec ((exec_rts s).trans (congrArg _ (finish_of_raised (pullPc_underflow h 0))))
  · have hexec := exec_rts s
    rw [finish_of_raised (pullPc_underflow_high h 0)] at hexec
    exact ⟨_, hexec, rfl, rfl, rfl, rfl, rfl, rfl, rfl, memSame_of_mem_eq rfl⟩

end Sys2Proof.Proofs.Calls

/-! PROOFS. The trap and the return from it (46_system_flags.md R330, R331; 60_exceptions.md R370, R371): what the three
bytes of its frame are, the faults at the ends of the stack, then BRK and RTI. -/

namespace Sys2Proof.Proofs.Traps

open Sys2Proof.Machine Sys2Proof.Claims Sys2Proof.Proofs.Frames Sys2Proof.Proofs.Stack Sys2Proof.Proofs.OneByteStack
  Sys2Proof.Proofs.Calls

theorem exec_brk (s : State) : exec .brk s = .next (doBrk s) := exec_eq .brk s

theorem doBrk_masked {s : State} (h : s.flag .i = true) : doBrk s = s := if_pos h

theorem doBrk_taken {s : State} (h : s.flag .i = false) : doBrk s = takeTrap s := by
  rw [doBrk, h]
  rfl

theorem exec_brk_taken {s : State} (h : s.flag .i = false) : exec .brk s = .next (takeTrap s) := by
  rw [exec_brk, doBrk_taken h]

theorem exec_rti (s : State) : exec .rti s = .next (returnFromTrap s) := exec_eq .rti s

/-- Settles O43: with I = 1 BRK is the identity. -/
theorem maskedBrkDoesNothing : Obligations.MaskedBrkDoesNothing := by
  intro s h
  rw [exec_brk, doBrk_masked h]

/-- The trap's frame is three bytes: every other byte is as it was. -/
theorem trapFrame_read_outside (s : State) {a : Word}
    (h : a ∉ [stackSlot s.sp, stackSlot (s.sp - 1), stackSlot (s.sp - 2)]) : (trapFrame s).read a = s.read a := by
  obtain ⟨h0, h1, h2⟩ : a ≠ stackSlot s.sp ∧ a ≠ stackSlot (s.sp - 1) ∧ a ≠ stackSlot (s.sp - 2) := by simpa using h
  calc (trapFrame s).read a
    _ = ((s.mem.write (stackSlot s.sp) (hiByte (s.pc + 1))).write (stackSlot (s.sp - 1)) (loByte (s.pc + 1))).read a :=
      Memory.read_write_other h2 _ _
    _ = (s.mem.write (stackSlot s.sp) (hiByte (s.pc + 1))).read a := Memory.read_write_other h1 _ _
    _ = s.read a := Memory.read_write_other h0 _ _

/-- The trap's frame in a canonical memory: the return address, high byte first, then P with bit 4 set. -/
theorem trapFrame_read_slots {s : State} (hinv : s.Inv) :
    (trapFrame s).read (stackSlot s.sp) = hiByte (s.pc + 1) ∧
      (trapFrame s).read (stackSlot (s.sp - 1)) = loByte (s.pc + 1) ∧
      (trapFrame s).read (stackSlot (s.sp - 2)) = insertFlag .b s.p := by
  have h01 : stackSlot s.sp ≠ stackSlot (s.sp - 1) := stackSlot_ne (by bv_omega)
  have h02 : stackSlot s.sp ≠ stackSlot (s.sp - 2) := stackSlot_ne (by bv_omega)
  have h12 : stackSlot (s.sp - 1) ≠ stackSlot (s.sp - 2) := stackSlot_ne (by bv_omega)
  have hwf := Memory.write_wf hinv (stackSlot s.sp) (hiByte (s.pc + 1))
  refine ⟨?_, ?_, ?_⟩
  · rw [trapFrame, Memory.read_write_other h02, Memory.read_write_other h01, Memory.read_write_same hinv]
  · rw [trapFrame, Memory.read_write_other h12, Memory.read_write_same hwf]
  · exact Memory.read_write_same (Memory.write_wf hwf _ _) _ _

/-- The stack page ends below the addresses from 0x0200 up, so no push touches a vector. -/
theorem not_mem_slots {a : Word} (ha : 0x0200 ≤ a.toNat) (sps : List Byte) : a ∉ sps.map stackSlot := by
  intro h
  obtain ⟨sp, -, rfl⟩ := List.mem_map.1 h
  have := sp.isLt
  rw [stackSlot_toNat] at ha
  omega

theorem trapFrame_read_vector (s : State) {a : Word} (ha : 0x0200 ≤ a.toNat) : (trapFrame s).read a = s.read a :=
  trapFrame_read_outside s (not_mem_slots ha [s.sp, s.sp - 1, s.sp - 2])

theorem pc_add_one_toNat (pc : Word) : (pc + 1).toNat = (pc.toNat + 1) % 65536 := BitVec.toNat_add pc 1

theorem hiByte_return_toNat (pc : Word) : (hiByte (pc + 1)).toNat = (pc.toNat + 1) % 65536 / 256 := by
  rw [hiByte_toNat, pc_add_one_toNat]

theorem loByte_return_toNat (pc : Word) : (loByte (pc + 1)).toNat = (pc.toNat + 1) % 256 := by
  rw [loByte_toNat, pc_add_one_toNat]
  omega

/-- Settles O42: the trap taken in full, its frame byte by byte. -/
theorem takenBrkEntersTheTrap : Obligations.TakenBrkEntersTheTrap := by
  refine ⟨hasForms_opcodesOf .brk, fun s hi hsp => ?_⟩
  have hexec := exec_brk_taken hi
  rw [takeTrap_done hsp] at hexec
  refine ⟨_, hexec, ?_, ?_, rfl, rfl, rfl, rfl, rfl, fun hinv => ?_, fun a ha => trapFrame_read_outside s ha⟩
  · rw [concat_toNat, trapFrame_read_vector s (by decide), trapFrame_read_vector s (by decide)]
  · bv_omega
  · obtain ⟨h0, h1, h2⟩ := trapFrame_read_slots hinv
    refine ⟨(congrArg BitVec.toNat h0).trans (hiByte_return_toNat s.pc),
      (congrArg BitVec.toNat h1).trans (loByte_return_toNat s.pc), fun f => (congrArg (testFlag f) h2).trans ?_⟩
    by_cases hf : f = .b
    · simp [testFlag_insertFlag, hf]
    · simp [testFlag_insertFlag, hf, State.flag]

theorem takeTrap_of_raised {s t : State} {f : Fault} (h : pushPc 1 s = .raised f t) : takeTrap s = raiseFault f t := by
  rw [takeTrap, h]
  rfl

/-- With no room left after the return address the flags fault, before the vector is read (60_exceptions.md R367). -/
theorem takeTrap_overflow_flags {s t : State} (h : pushPc 1 s = .done () t) (ht : t.sp = 0x00) :
    takeTrap s = raiseFault .stackOverflow t := by
  rw [takeTrap, h, Attempt.andThen_done, pushFlags_eq, push_overflow ht]
  rfl

theorem fields_of_frame_sp {s t : State} (h : Frame [.sp] [] s t) :
    t.pc = s.pc ∧ t.p = s.p ∧ t.a = s.a ∧ t.x = s.x ∧ t.y = s.y :=
  ⟨h.regs .pc (by decide) (by decide), eq_of_testFlag fun f => h.flags f (by simp),
    zext16_inj (h.regs .a (by decide) (by decide)), zext16_inj (h.regs .x (by decide) (by decide)),
    zext16_inj (h.regs .y (by decide) (by decide))⟩

/-- Settles O44: the first push that finds no room ends the trap, with the pushes before it done. -/
theorem brkFaultsBeforeTheVector : Obligations.BrkFaultsBeforeTheVector := by
  intro s hi
  have hexec := exec_brk_taken hi
  refine ⟨fun h => ?_, fun h => ?_⟩
  · rw [takeTrap_of_raised (pushPc_overflow h 1)] at hexec
    exact faultsUntouched_of_exec hexec
  · obtain h | h := h
    · rw [takeTrap_of_raised (pushPc_overflow_low h 1)] at hexec
      refine ⟨_, hexec, rfl, rfl, rfl, rfl, rfl, rfl, rfl, fun _ => ⟨fun hinv => ?_, memSameOutside_write s _ _⟩,
        fun h2 => absurd (h.symm.trans h2) (by decide)⟩
      exact (congrArg BitVec.toNat (State.read_write_same hinv 0x0101 _)).trans (hiByte_return_toNat s.pc)
    · obtain ⟨t, hpush, htop, hslots, hframe, hmem⟩ := pushPc_effect (s := s) (by rw [h]; decide) 1
      have ht : t.sp = 0x00 := by rw [htop, h]; rfl
      have hslot0 : stackSlot s.sp = 0x0102 := by rw [h]; rfl
      have hslot1 : stackSlot (s.sp - 1) = 0x0101 := by rw [h]; rfl
      rw [takeTrap_overflow_flags hpush ht] at hexec
      rw [hslot0, hslot1] at hslots hmem
      obtain ⟨hpc, hp, ha, hx, hy⟩ := fields_of_frame_sp hframe
      refine ⟨_, hexec, rfl, ht, hpc, hp, ha, hx, hy, fun h1 => absurd (h.symm.trans h1) (by decide),
        fun _ => ⟨fun hinv => ?_, hmem⟩⟩
      obtain ⟨hhi, hlo⟩ := hslots hinv
      exact ⟨(congrArg BitVec.toNat hhi).trans (hiByte_return_toNat s.pc),
        (congrArg BitVec.toNat hlo).trans (loByte_return_toNat s.pc)⟩

/-- Settles O45: the return in full: a pull of P, then the word. -/
theorem rtiRestoresFlagsAndPc : Obligations.RtiRestoresFlagsAndPc := by
  refine ⟨hasForms_opcodesOf .rti, fun s hsp => ?_⟩
  have hexec := exec_rti s
  rw [returnFromTrap_done hsp] at hexec
  have hframe : Frame [.pc, .sp] [.c, .z, .i, .d, .u, .v, .n] s _ := frame_mono
    (frame_trans (frame_trans (frame_setP_restoredP (s.read (stackSlot (s.sp + 1))) s) (frame_setSp _ (s.sp + 3)))
      (Branches.frame_setPc _ (concat (s.read (stackSlot (s.sp + 3))) (s.read (stackSlot (s.sp + 2))))))
    (by simp) (by simp)
  refine ⟨_, hexec, hframe.flags .b (by decide), fun f hf => ?_, concat_toNat _ _, ?_, hframe, memSame_of_mem_eq rfl⟩
  · simp [State.flag, testFlag_restoredP, hf]
  · bv_omega

theorem returnFromTrap_underflow {s : State} (h : s.sp = 0xFF) :
    returnFromTrap s = raiseFault .stackUnderflow s := by
  rw [returnFromTrap, pullFlags_underflow h]
  rfl

/-- With one or two bytes on the stack P is restored and the pull of PC faults (46_system_flags.md R331). -/
theorem returnFromTrap_underflow_pc {s : State} (h : s.sp = 0xFE ∨ s.sp = 0xFD) :
    returnFromTrap s =
      raiseFault .stackUnderflow ((s.setSp 0xFF).setP (restoredP (s.read (stackSlot (s.sp + 1))) s.p)) := by
  have hsp : s.sp ≠ 0xFF := by obtain h | h := h <;> rw [h] <;> decide
  rw [returnFromTrap, pullFlags_done hsp, Attempt.andThen_done]
  obtain h | h := h
  · have htop : s.sp + 1 = 0xFF := by rw [h]; rfl
    rw [htop]
    exact finish_of_raised (pullPc_underflow rfl 0)
  · have htop : s.sp + 1 = 0xFE := by rw [h]; rfl
    rw [htop]
    exact finish_of_raised (pullPc_underflow_high rfl 0)

/-- Settles O46: the pull that finds no byte ends the return, with P restored where it was pulled. -/
theorem rtiFaultsKeepWhatIsDone : Obligations.RtiFaultsKeepWhatIsDone := by
  intro s
  have hexec := exec_rti s
  refine ⟨fun h => ?_, fun h => ?_⟩
  · rw [returnFromTrap_underflow h] at hexec
    exact faultsUntouched_of_exec hexec
  · rw [returnFromTrap_underflow_pc h] at hexec
    refine ⟨_, hexec, rfl, rfl, rfl, rfl, rfl, rfl, ?_, fun f hf => ?_, memSame_of_mem_eq rfl⟩
    · simp [State.flag, testFlag_restoredP]
    · simp [State.flag, testFlag_restoredP, hf]

/-- Settles O47: what RTI reads is the frame BRK pushed; B, which the frame has set, RTI does not take from it. -/
theorem brkThenRtiResumes : Obligations.BrkThenRtiResumes := by
  intro s hinv hi hsp
  obtain ⟨t, hbrk, -, htsp, hsusp, htp, hta, htx, hty, hslots, -⟩ := takenBrkEntersTheTrap.2 s hi hsp
  obtain ⟨u, hrti, hub, huflags, hupc, husp, hframe, -⟩ :=
    rtiRestoresFlagsAndPc.2 t.resume (by have := s.sp.isLt; rw [State.resume_sp]; omega)
  obtain ⟨hhi, hlo, hflags⟩ := hslots hinv
  simp only [State.resume_sp] at huflags hupc husp
  have hup : t.sp + 3 = s.sp ∧ t.sp + 2 = s.sp - 1 ∧ t.sp + 1 = s.sp - 2 := by refine ⟨?_, ?_, ?_⟩ <;> bv_omega
  obtain ⟨hup3, hup2, hup1⟩ := hup
  have hpc : u.pc = s.pc + 1 := by
    apply BitVec.eq_of_toNat_eq
    rw [hupc, hup3, hup2, pc_add_one_toNat]
    refine (congrArg₂ (fun hi lo => hi * 256 + lo) hhi hlo).trans ?_
    omega
  have hspEq : u.sp = s.sp := by bv_omega
  have hp : u.p = s.p := by
    refine eq_of_testFlag fun f => ?_
    by_cases hf : f = .b
    · rw [hf]
      exact hub.trans (congrArg (testFlag .b) htp)
    · calc u.flag f
        _ = testFlag f (t.read (stackSlot (s.sp - 2))) := by rw [huflags f hf, hup1]; rfl
        _ = s.flag f := by rw [hflags f]; simp [hf]
  have ha : u.a = t.a := zext16_inj (hframe.regs .a (by decide) (by decide))
  have hx : u.x = t.x := zext16_inj (hframe.regs .x (by decide) (by decide))
  have hy : u.y = t.y := zext16_inj (hframe.regs .y (by decide) (by decide))
  refine ⟨t, u, hbrk, hsusp, hrti, ?_, hframe.engine⟩
  simp [State.registers, hpc, hspEq, hp, ha, hx, hy, hta, htx, hty]

end Sys2Proof.Proofs.Traps

/-! PROOFS. Add, subtract, compare and bit test (43_arith_logic.md R231, R232, R250, R255): what a new P from the ALU
gives of frames and of Z and N; then the mnemonics, and the readings of V and C that the switches choose. -/

namespace Sys2Proof.Proofs.Alu

open Sys2Proof.Machine Sys2Proof.Claims Sys2Proof.Proofs.Frames

/-- A new P that agrees outside a list of bits leaves every other register and bit alone. -/
theorem frame_setP {flags : List Flag} {s : State} {p : Byte} (h : ∀ f, f ∉ flags → testFlag f p = s.flag f) :
    Frame [] flags s (s.setP p) where
  regs _ _ hf := reg_setP_of_ne hf s p
  flags := h
  engine := rfl

theorem znFollow_of_flags {v : Byte} {t : State} (hz : t.flag .z = (v == 0)) (hn : t.flag .n = v.msb) : ZNFollow v t :=
  ⟨hz.trans (beq_eq_decide v 0), hn.trans (BitVec.msb_eq_decide v)⟩

/-- A and P from an ALU result that writes no bit outside a list: the frame of every such instruction. -/
theorem frame_setAluA {flags : List Flag} {s : State} {out : AluOut}
    (h : ∀ f, f ∉ flags → testFlag f out.p = s.flag f) : Frame [.a] flags s (s.setAluA out) :=
  frame_trans (writesRegister_setA.frame s out.result) (frame_setP h)

theorem testFlag_aluAdd_of_not_mem {f : Flag} (hf : f ∉ [Flag.c, .v, .z, .n]) (a b p : Byte) :
    testFlag f (aluAdd a b p).p = testFlag f p := by
  obtain ⟨hc, hv, hz, hn⟩ : f ≠ .c ∧ f ≠ .v ∧ f ≠ .z ∧ f ≠ .n := by simpa using hf
  simp [testFlag_aluAdd, hc, hv, hz, hn]

theorem testFlag_aluSub_of_not_mem {f : Flag} (hf : f ∉ [Flag.c, .z, .n]) (a b p : Byte) :
    testFlag f (aluSub a b p).p = testFlag f p := by
  obtain ⟨hc, hz, hn⟩ : f ≠ .c ∧ f ≠ .z ∧ f ≠ .n := by simpa using hf
  simp [testFlag_aluSub, hc, hz, hn]

theorem testFlag_aluCompare_of_not_mem {f : Flag} (hf : f ∉ [Flag.c, .z, .n]) (r m p : Byte) :
    testFlag f (aluCompare r m p) = testFlag f p := by
  obtain ⟨hc, hz, hn⟩ : f ≠ .c ∧ f ≠ .z ∧ f ≠ .n := by simpa using hf
  simp [testFlag_aluCompare, hc, hz, hn]

theorem testFlag_aluBit_of_not_mem {f : Flag} (hf : f ∉ [Flag.z, .n, .v]) (a m p : Byte) :
    testFlag f (aluBit a m p) = testFlag f p := by
  obtain ⟨hz, hn, hv⟩ : f ≠ .z ∧ f ≠ .n ∧ f ≠ .v := by simpa using hf
  simp [testFlag_aluBit, hz, hn, hv]

/-- Settles O27: A is the sum mod 256, and C and V are both the carry out. -/
theorem adcAddsWithCarry : Obligations.AdcAddsWithCarry := by
  refine ⟨hasForms_opcodesOf .adc, fun i s hm => ?_⟩
  obtain ⟨src, hsrc⟩ := source_of i (by simp [hm])
  have hexec : exec i s = .next (s.setAluA (aluAdd s.a (readOperand src s) s.p)) := by
    rw [exec_eq, hm, effect, onSource_some hsrc, doAdc]
  have hp f := testFlag_aluAdd f s.a (readOperand src s) s.p
  exact ⟨src, _, _, hsrc, hexec, rfl, aluAdd_result s.a _ s.p, hp .c, hp .v, znFollow_of_flags (hp .z) (hp .n),
    frame_setAluA fun f hf => testFlag_aluAdd_of_not_mem hf _ _ _, memSame_of_mem_eq rfl⟩

/-- Settles O28: A is the difference mod 256, and C is the borrow. -/
theorem sbcSubtractsWithBorrow : Obligations.SbcSubtractsWithBorrow := by
  refine ⟨hasForms_opcodesOf .sbc, fun i s hm => ?_⟩
  obtain ⟨src, hsrc⟩ := source_of i (by simp [hm])
  have hexec : exec i s = .next (s.setAluA (aluSub s.a (readOperand src s) s.p)) := by
    rw [exec_eq, hm, effect, onSource_some hsrc, doSbc]
  have hp f := testFlag_aluSub f s.a (readOperand src s) s.p
  exact ⟨src, _, _, hsrc, hexec, rfl, aluSub_result s.a _ s.p, hp .c, znFollow_of_flags (hp .z) (hp .n),
    frame_setAluA fun f hf => testFlag_aluSub_of_not_mem hf _ _ _, memSame_of_mem_eq rfl⟩

/-- A byte as a two's-complement number. -/
theorem toInt_eq (v : Byte) : v.toInt = if 128 ≤ v.toNat then (v.toNat : Int) - 256 else v.toNat := by
  have := v.isLt
  rw [BitVec.toInt_eq_toNat_cond]
  split <;> split <;> omega

/-- A sum of signed bytes overflows exactly when its sign differs from the sign of both. -/
theorem msb_eq_signed_sum_overflow {a b r : Byte} {c : Nat} (hc : c ≤ 1)
    (hr : r.toNat = (a.toNat + b.toNat + c) % 256) :
    ((a ^^^ r) &&& (b ^^^ r)).msb = decide (r.toInt ≠ a.toInt + b.toInt + c) := by
  have := a.isLt; have := b.isLt
  rw [BitVec.msb_and, BitVec.msb_xor, BitVec.msb_xor, Bool.eq_iff_iff]
  simp only [BitVec.msb_eq_decide, toInt_eq]
  by_cases ha : 128 ≤ a.toNat <;> by_cases hb : 128 ≤ b.toNat <;> by_cases hs : 128 ≤ r.toNat <;>
    simp [ha, hb, hs] <;> omega

/-- A difference of signed bytes overflows exactly when the signs differ and the result's is not the first one's. -/
theorem msb_eq_signed_difference_overflow {a b r : Byte} {c : Nat} (hc : c ≤ 1)
    (hr : (r.toNat : Int) = ((a.toNat : Int) - b.toNat - c) % 256) :
    ((a ^^^ b) &&& (a ^^^ r)).msb = decide (r.toInt ≠ a.toInt - b.toInt - c) := by
  have := a.isLt; have := b.isLt
  rw [BitVec.msb_and, BitVec.msb_xor, BitVec.msb_xor, Bool.eq_iff_iff]
  simp only [BitVec.msb_eq_decide, toInt_eq]
  by_cases ha : 128 ≤ a.toNat <;> by_cases hb : 128 ≤ b.toNat <;> by_cases hs : 128 ≤ r.toNat <;>
    simp [ha, hb, hs] <;> omega

theorem carryIn_le_one (p : Byte) : carryIn p ≤ 1 := Bool.toNat_le _

/-- `Add` under signed and under carry: one result, and one P but for V. -/
theorem testFlag_aluAddWith_signed (f : Flag) (a b p : Byte) : testFlag f (aluAddWith .signed a b p).p =
    if f = .v then ((a ^^^ (aluAdd a b p).result) &&& (b ^^^ (aluAdd a b p).result)).msb
    else testFlag f (aluAdd a b p).p := by
  cases f <;> simp [aluAdd, aluAddWith]

/-- `Sub` under signed and under unchanged: one result, and one P but for V. -/
theorem testFlag_aluSubWith_signed (f : Flag) (a b p : Byte) : testFlag f (aluSubWith .signed a b p).p =
    if f = .v then ((a ^^^ b) &&& (a ^^^ (aluSub a b p).result)).msb else testFlag f (aluSub a b p).p := by
  cases f <;> simp [aluSub, aluSubWith, Config.sbcVRule]

/-- Settles O29: the switch is read for V alone, and the sign rule is the signed overflow. -/
theorem signedOverflowReadingsDifferOnlyInV : Obligations.SignedOverflowReadingsDifferOnlyInV := by
  refine fun a b p => ⟨rfl, fun f hf => ?_, ?_, rfl, fun f hf => ?_, ?_⟩
  · rw [testFlag_aluAddWith_signed, if_neg hf]
  · rw [testFlag_aluAddWith_signed, if_pos rfl]
    exact msb_eq_signed_sum_overflow (carryIn_le_one p) (aluAdd_result a b p)
  · rw [testFlag_aluSubWith_signed, if_neg hf]
  · rw [testFlag_aluSubWith_signed, if_pos rfl]
    exact msb_eq_signed_difference_overflow (carryIn_le_one p) (aluSub_result a b p)

theorem beq_eq_sub_beq_zero (r m : Byte) : (r == m) = (r - m == 0) := by
  rw [Bool.eq_iff_iff, beq_iff_eq, beq_iff_eq]
  exact sub_eq_zero.symm

/-- A mnemonic that compares a register with its operand, and writes P from it, is a compare. -/
theorem isCompare_of_effect {m : Mnemonic} {get : State → Byte} {compare : Source → State → State}
    (hm : m ∈ [.lda, .ldx, .ldy, .adc, .sbc, .and, .ora, .eor, .cmp, .cpx, .cpy, .bit])
    (heff : ∀ o s, effect m o s = onSource compare o s)
    (hcompare : ∀ src s, compare src s = s.setP (aluCompare (get s) (readOperand src s) s.p)) : IsCompare m get := by
  rintro i s rfl
  obtain ⟨src, hsrc⟩ := source_of i hm
  have hexec : exec i s = .next (s.setP (aluCompare (get s) (readOperand src s) s.p)) := by
    rw [exec_eq, heff, onSource_some hsrc, hcompare]
  have hp f := testFlag_aluCompare f (get s) (readOperand src s) s.p
  exact ⟨src, _, hsrc, hexec, hp .c, znFollow_of_flags ((hp .z).trans (beq_eq_sub_beq_zero _ _)) (hp .n),
    frame_setP fun f hf => testFlag_aluCompare_of_not_mem hf _ _ _, memSame_of_mem_eq rfl⟩

/-- `Compare` under borrow and under nmos: one P but for C, which is the opposite (43_arith_logic.md R250). -/
theorem testFlag_aluCompareWith_borrow (f : Flag) (r m p : Byte) : testFlag f (aluCompareWith .borrow r m p) =
    if f = .c then !testFlag .c (aluCompare r m p) else testFlag f (aluCompare r m p) := by
  cases f <;> simp [aluCompare, aluCompareWith, Config.cmpCRule, ← decide_not]

/-- Settles O31: each of the three writes P from one compare. -/
theorem comparesSetFlagsOnly : Obligations.ComparesSetFlagsOnly :=
  ⟨hasForms_opcodesOf .cmp, hasForms_opcodesOf .cpx, hasForms_opcodesOf .cpy,
    isCompare_of_effect (by decide) (fun _ _ => rfl) (fun _ _ => rfl),
    isCompare_of_effect (by decide) (fun _ _ => rfl) (fun _ _ => rfl),
    isCompare_of_effect (by decide) (fun _ _ => rfl) (fun _ _ => rfl),
    fun r m p f => testFlag_aluCompareWith_borrow f r m p⟩

theorem bit6_eq_decide (v : Byte) : v.getLsbD 6 = decide (64 ≤ v.toNat % 128) := by
  have hbit : v.getLsbD 6 = decide (v.toNat / 64 % 2 = 1) := Nat.testBit_eq_decide_div_mod_eq
  rw [hbit, decide_eq_decide]
  omega

/-- Settles O32: BIT writes P from A and the operand. -/
theorem bitTestsMemoryAgainstA : Obligations.BitTestsMemoryAgainstA := by
  refine ⟨hasForms_opcodesOf .bit, fun i s hm => ?_⟩
  obtain ⟨src, hsrc⟩ := source_of i (by simp [hm])
  have hexec : exec i s = .next (s.setP (aluBit s.a (readOperand src s) s.p)) := by
    rw [exec_eq, hm, effect, onSource_some hsrc, doBit]
  have hp f := testFlag_aluBit f s.a (readOperand src s) s.p
  exact ⟨src, _, hsrc, hexec, (hp .z).trans (beq_eq_decide _ _),
    (hp .n).trans (BitVec.msb_eq_decide (readOperand src s)), (hp .v).trans (bit6_eq_decide _),
    frame_setP fun f hf => testFlag_aluBit_of_not_mem hf _ _ _, memSame_of_mem_eq rfl⟩

/-- Settles O21: TXS is a transfer into SP; under the other reading it is the write of SP alone. -/
theorem txsSetsSpAndFlags : Obligations.TxsSetsSpAndFlags :=
  ⟨hasForms_opcodesOf .txs, LoadStore.isTransfer_of_exec Stack.writesRegister_setSp (exec_eq .txs),
    fun s => ⟨rfl, OneByteStack.frame_setSp s s.x, memSame_of_mem_eq rfl⟩⟩

end Sys2Proof.Proofs.Alu

/-! PROOFS. Effective addresses that wrap mod 65536 or read a pointer (40_addressing.md R143, R145 to R148, R152). -/

namespace Sys2Proof.Proofs.Pointers

open Sys2Proof.Machine Sys2Proof.Proofs.Addressing Sys2Proof.Proofs.Branches Sys2Proof.Proofs.Calls

@[simp] theorem ea_indirectX (zp : Byte) (s : State) : ea (.indirectX zp) s = zpRead16With true s (zp + s.x) := rfl

@[simp] theorem ea_indirectY (zp : Byte) (s : State) : ea (.indirectY zp) s = zpRead16With true s zp + zext16 s.y := rfl

/-- A displacement of 128 or more is negative: its extension is 0xFF00 more (00_scope.md R12). -/
theorem sext16_toNat (b : Byte) : (sext16 b).toNat = if b.toNat < 128 then b.toNat else b.toNat + 0xFF00 := by
  have := b.isLt
  rw [sext16, BitVec.toNat_signExtend, BitVec.msb_eq_decide, BitVec.toNat_setWidth]
  simp only [decide_eq_true_eq]
  split <;> split <;> omega

theorem add_zext16_toNat (w : Word) (b : Byte) : (w + zext16 b).toNat = (w.toNat + b.toNat) % 65536 := by
  rw [BitVec.toNat_add, zext16_toNat]

theorem zext16_eq_ofNat (b : Byte) : zext16 b = BitVec.ofNat 16 b.toNat := by
  rw [← zext16_toNat, BitVec.ofNat_toNat, BitVec.setWidth_eq]

theorem add_one_eq_ofNat (w : Word) : w + 1 = BitVec.ofNat 16 ((w.toNat + 1) % 65536) := by
  apply BitVec.eq_of_toNat_eq
  rw [BitVec.toNat_add, BitVec.toNat_ofNat, Nat.mod_mod]
  rfl

/-- Settles O15: each address is one sum of words, or the word of two bytes read. -/
theorem indexedAndRelativeAddressesWrap : Obligations.IndexedAndRelativeAddressesWrap := by
  refine fun s disp w => ⟨?_, add_zext16_toNat w s.x, add_zext16_toNat w s.y, ?_⟩
  · rw [ea_relative, BitVec.toNat_add, sext16_toNat]
  · rw [ea_indirect, concat_toNat, add_one_eq_ofNat]

/-- A pointer in the zero page, its high byte at the next address of the page (40_addressing.md R152). -/
theorem zpRead16With_true_toNat (s : State) (p : Byte) : (zpRead16With true s p).toNat =
    (s.read (BitVec.ofNat 16 ((p.toNat + 1) % 256))).toNat * 256 + (s.read (BitVec.ofNat 16 p.toNat)).toNat := by
  have hnext : (p + 1).toNat = (p.toNat + 1) % 256 := BitVec.toNat_add p 1
  rw [zpRead16With, if_pos rfl, concat_toNat, zext16_eq_ofNat, zext16_eq_ofNat, hnext]

/-- Below 0xFF the next address of the zero page is the next address. -/
theorem zext16_add_one {p : Byte} (h : p ≠ 0xFF) : zext16 p + 1 = zext16 (p + 1) := by
  apply BitVec.eq_of_toNat_eq
  have hnext := Stack.add_one_toNat h
  have := (p + 1).isLt
  have hword : (zext16 p + 1).toNat = ((zext16 p).toNat + 1) % 65536 := BitVec.toNat_add _ 1
  rw [hword, zext16_toNat, zext16_toNat]
  omega

/-- Settles O16: the pointer's two addresses under each reading of the switch. -/
theorem zeroPagePointersAndTheirSwitch : Obligations.ZeroPagePointersAndTheirSwitch := by
  refine ⟨fun s zp => ⟨?_, ?_⟩, fun s p => ⟨rfl, fun hp => ?_⟩, fun s => concat_toNat _ _⟩
  · rw [ea_indirectX, zpRead16With_true_toNat, BitVec.toNat_add, Nat.mod_add_mod]
  · rw [ea_indirectY, add_zext16_toNat, zpRead16With_true_toNat]
  · simp only [zpRead16With, Bool.false_eq_true, if_false, if_true, zext16_add_one hp]

end Sys2Proof.Proofs.Pointers

/-! PROOFS. What an instruction may change (10_state.md R31 to R46; 20_memory.md R79, R82; 60_exceptions.md R381): a
table by mnemonic, that every instruction keeps to it, and what follows for registers, bits of P, memory and the
engine. -/

namespace Sys2Proof.Proofs.Writers

open Sys2Proof.Machine Sys2Proof.Claims Sys2Proof.Proofs.Frames Sys2Proof.Proofs.Stack Sys2Proof.Proofs.OneByteStack
  Sys2Proof.Proofs.Branches Sys2Proof.Proofs.Alu

/-- The registers a mnemonic may write (10_state.md R31 to R35); a shift writes A in Accumulator mode only. -/
def regsWritten (m : Mnemonic) (md : Mode) : List RegKey :=
  match m with
  | .lda | .txa | .tya | .adc | .sbc | .and | .ora | .eor => [.a]
  | .asl | .lsr | .rol | .ror => if md = .accumulator then [.a] else []
  | .ldx | .tax | .tsx | .inx | .dex => [.x]
  | .ldy | .tay | .iny | .dey => [.y]
  | .txs | .pha | .php | .plp => [.sp]
  | .pla => [.sp, .a]
  | .jsr | .rts | .rti | .brk => [.pc, .sp]
  | .jmp | .bcc | .bcs | .beq | .bne | .bmi | .bpl | .bvc | .bvs => [.pc]
  | .sta | .stx | .sty | .cmp | .cpx | .cpy | .bit | .inc | .dec | .nop
  | .clc | .cld | .cli | .clv | .sec | .sed | .sei => []

/-- The bits of P a mnemonic may write (10_state.md R39 to R46). -/
def flagsWritten (m : Mnemonic) : List Flag :=
  match m with
  | .lda | .ldx | .ldy | .tax | .tay | .txa | .tya | .tsx | .txs | .pla | .and | .ora | .eor
  | .inc | .dec | .inx | .iny | .dex | .dey => [.z, .n]
  | .adc => [.c, .v, .z, .n]
  | .sbc | .cmp | .cpx | .cpy | .asl | .lsr | .rol | .ror => [.c, .z, .n]
  | .bit => [.z, .n, .v]
  | .plp | .rti => [.c, .z, .i, .d, .u, .v, .n]
  | .clc | .sec => [.c]
  | .cld | .sed => [.d]
  | .cli | .sei => [.i]
  | .clv => [.v]
  | .sta | .stx | .sty | .pha | .php | .jmp | .jsr | .rts | .brk | .nop
  | .bcc | .bcs | .beq | .bne | .bmi | .bpl | .bvc | .bvs => []

/-- The mnemonics that write memory at their effective address (20_memory.md R79). -/
def memoryWriters : List Mnemonic := [.sta, .stx, .sty, .inc, .dec, .asl, .lsr, .rol, .ror]

/-- The mnemonics that push (42_stack.md R200). -/
def pushers : List Mnemonic := [.pha, .php, .jsr, .brk]

/-- The mnemonics that pull (42_stack.md R201). -/
def pullers : List Mnemonic := [.pla, .plp, .rts, .rti]

/-- An address a mnemonic may write from a state: its effective address, or, if it pushes, the stack page above 0x0100
(20_memory.md R79, R82). -/
def MayWrite (m : Mnemonic) (o : Operand) (s : State) (a : Word) : Prop :=
  (m ∈ memoryWriters ∧ ∃ d, o.mem? = some d ∧ a = ea d s) ∨
  (m ∈ pushers ∧ 0x0101 ≤ a.toNat ∧ a.toNat ≤ 0x01FF)

/-- From `s` to `t` no more has changed than the mnemonic may change, and the engine has not. -/
structure Writes (m : Mnemonic) (o : Operand) (s t : State) : Prop where
  frame : Frame (regsWritten m o.mode) (flagsWritten m) s t
  mem : ∀ a, t.read a ≠ s.read a → MayWrite m o s a

section

variable {m : Mnemonic} {o : Operand} {s t : State}

theorem writes_of_memSame (hframe : Frame (regsWritten m o.mode) (flagsWritten m) s t) (hmem : MemSame s t) :
    Writes m o s t where
  frame := hframe
  mem a ha := absurd (hmem a) ha

theorem writes_refl : Writes m o s s := writes_of_memSame (frame_refl _ _ s) (memSame_of_mem_eq rfl)

/-- A store or a read-modify-write that changes one byte at its effective address. -/
theorem writes_of_ea {d : MemOperand} (hm : m ∈ memoryWriters) (hd : o.mem? = some d)
    (hframe : Frame (regsWritten m o.mode) (flagsWritten m) s t) (hmem : MemSameOutside [ea d s] s t) :
    Writes m o s t where
  frame := hframe
  mem a ha := .inl ⟨hm, d, hd, by simpa using mt (hmem a) ha⟩

theorem onSource_writes {f : Source → State → State} (h : ∀ src, Writes m o s (f src s)) :
    Writes m o s (onSource f o s) := by
  unfold onSource
  split
  · exact h _
  · exact writes_refl

theorem onMem_writes {f : MemOperand → State → State} (h : ∀ d, o.mem? = some d → Writes m o s (f d s)) :
    Writes m o s (onMem f o s) := by
  unfold onMem
  split
  · next d hd => exact h d hd
  · exact writes_refl

theorem onBranch_writes (hr : regsWritten m o.mode = [.pc]) (hf : flagsWritten m = []) (cond : Bool) :
    Writes m o s (onBranch cond o s) := by
  unfold onBranch
  split
  · next disp =>
    obtain ⟨hframe, hmem⟩ := branch_frame cond disp s
    exact writes_of_memSame (by rwa [hr, hf]) hmem
  · exact writes_refl

/-- The register written and `SetZN` of the same byte. -/
theorem set_setZN_writes {key : RegKey} {get : State → Byte} {set : State → Byte → State}
    (w : WritesRegister key get set) (hr : regsWritten m o.mode = [key]) (hf : flagsWritten m = [.z, .n]) (v : Byte) :
    Writes m o s ((set s v).setZN v) := by
  obtain ⟨-, -, hframe, hmem⟩ := w.set_setZN s v
  exact writes_of_memSame (by rwa [hr, hf]) hmem

theorem store_writes (hm : m ∈ memoryWriters) (v : Byte) {d : MemOperand}
    (hd : o.mem? = some d) : Writes m o s (s.write (ea d s) v) :=
  writes_of_ea hm hd (frame_mono (frame_write s _ v) (by simp) (by simp))
    (memSameOutside_write s _ v)

theorem write_setZN_writes (hm : m ∈ memoryWriters) (hf : flagsWritten m = [.z, .n]) (v : Byte) {d : MemOperand}
    (hd : o.mem? = some d) : Writes m o s ((s.write (ea d s) v).setZN v) := by
  obtain ⟨-, -, hframe, hmem⟩ := ArithLogic.write_setZN s (ea d s) v
  exact writes_of_ea hm hd (frame_mono hframe (by simp) (by simp [hf])) hmem

theorem mem?_of_dest? {d : MemOperand} (h : o.dest? = some (.mem d)) : o.mem? = some d := by
  cases o <;> simp_all [Operand.dest?, Operand.mem?]

theorem eq_accumulator_of_dest? (h : o.dest? = some .accumulator) : o = .accumulator := by
  cases o <;> simp_all [Operand.dest?]

/-- A shift writes A in Accumulator mode, and the byte at its effective address in the others. -/
theorem shift_writes {alu : Byte → Byte → AluOut} {res : Nat → Nat → Nat} {out : Nat → Bool}
    (h : ShiftRotate.ShiftsBy alu res out) (hm : m ∈ memoryWriters)
    (hr : ∀ md, regsWritten m md = if md = .accumulator then [.a] else []) (hf : flagsWritten m = [.c, .z, .n]) :
    Writes m o s (onDest (shiftOperand alu) o s) := by
  unfold onDest
  split
  · next d hd =>
    cases d with
    | accumulator =>
      obtain ⟨-, hframe, hmem⟩ := h.accumulator s
      obtain rfl := eq_accumulator_of_dest? hd
      exact writes_of_memSame (by rwa [hr, hf]) hmem
    | mem d =>
      obtain ⟨-, hframe, hmem⟩ := h.mem d s
      exact writes_of_ea hm (mem?_of_dest? hd) (frame_mono hframe (by simp) (by simp [hf])) hmem
  · exact writes_refl

theorem setAluA_writes {out : AluOut} (hr : regsWritten m o.mode = [.a])
    (h : ∀ f, f ∉ flagsWritten m → testFlag f out.p = s.flag f) : Writes m o s (s.setAluA out) :=
  writes_of_memSame (hr ▸ frame_setAluA h) (memSame_of_mem_eq rfl)

theorem setP_writes {p : Byte} (h : ∀ f, f ∉ flagsWritten m → testFlag f p = s.flag f) : Writes m o s (s.setP p) :=
  writes_of_memSame (frame_mono (frame_setP h) (by simp) (by simp)) (memSame_of_mem_eq rfl)

theorem setFlag_writes {f : Flag} (hf : flagsWritten m = [f]) (v : Bool) : Writes m o s (s.setFlag f v) :=
  writes_of_memSame (frame_mono (SystemFlags.frame_setFlag f v s) (by simp) (by simp [hf])) (memSame_of_mem_eq rfl)

end

/-- Every mnemonic off the stack keeps to the table. -/
theorem effect_writes {m : Mnemonic} {o : Operand} (s : State)
    (hpush : m ∉ pushers) (hpull : m ∉ pullers)
    (hmem : m ∈ [.inc, .dec] → ∃ d, o.mem? = some d) : Writes m o s (effect m o s) := by
  cases m <;> simp only [effect]
  case lda => exact onSource_writes fun _ => set_setZN_writes writesRegister_setA rfl rfl _
  case ldx => exact onSource_writes fun _ => set_setZN_writes writesRegister_setX rfl rfl _
  case ldy => exact onSource_writes fun _ => set_setZN_writes writesRegister_setY rfl rfl _
  case sta | stx | sty => exact onMem_writes fun _ => store_writes (by decide) _
  case txa | tya => exact set_setZN_writes writesRegister_setA rfl rfl _
  case tax | tsx | inx | dex => exact set_setZN_writes writesRegister_setX rfl rfl _
  case tay | iny | dey => exact set_setZN_writes writesRegister_setY rfl rfl _
  case txs => exact set_setZN_writes writesRegister_setSp rfl rfl _
  case and | ora | eor => exact onSource_writes fun _ => set_setZN_writes writesRegister_setA rfl rfl _
  case adc => exact onSource_writes fun _ => setAluA_writes rfl fun _ hf => testFlag_aluAdd_of_not_mem hf _ _ _
  case sbc => exact onSource_writes fun _ => setAluA_writes rfl fun _ hf => testFlag_aluSub_of_not_mem hf _ _ _
  case cmp | cpx | cpy =>
    exact onSource_writes fun _ => setP_writes fun _ hf => testFlag_aluCompare_of_not_mem hf _ _ _
  case bit => exact onSource_writes fun _ => setP_writes fun _ hf => testFlag_aluBit_of_not_mem hf _ _ _
  case inc | dec =>
    obtain ⟨d, hd⟩ := hmem (by decide)
    rw [onDest_some (dest_of_mem hd)]
    exact write_setZN_writes (by decide) rfl _ hd
  case asl => exact shift_writes ShiftRotate.shiftsBy_aluShl (by decide) (fun _ => rfl) rfl
  case lsr => exact shift_writes ShiftRotate.shiftsBy_aluShr (by decide) (fun _ => rfl) rfl
  case rol => exact shift_writes ShiftRotate.shiftsBy_aluRol (by decide) (fun _ => rfl) rfl
  case ror => exact shift_writes ShiftRotate.shiftsBy_aluRor (by decide) (fun _ => rfl) rfl
  case jmp => exact onMem_writes fun _ _ => writes_of_memSame (frame_setPc s _) (memSame_of_mem_eq rfl)
  case bcc | bcs | beq | bne | bmi | bpl | bvc | bvs => exact onBranch_writes rfl rfl _
  case nop => exact writes_refl
  case clc | cld | cli | clv | sec | sed | sei => exact setFlag_writes rfl _
  case pha | php | jsr | brk => exact absurd hpush (by decide)
  case pla | plp | rts | rti => exact absurd hpull (by decide)

/-- An attempt ends with `D` true of its state, or with the fault `f` raised at SP = `sp` and `R` true of its state. -/
def Ends (D R : State → Prop) (f : Fault) (sp : Byte) {α : Type} (t : Attempt α) : Prop :=
  match t with
  | .done _ s => D s
  | .raised g s => g = f ∧ s.sp = sp ∧ R s

theorem andThen_ends {D D' R : State → Prop} {f : Fault} {sp : Byte} {α β : Type} {t : Attempt α}
    {k : α → State → Attempt β} (ht : Ends D R f sp t) (hk : ∀ v s, D s → Ends D' R f sp (k v s)) :
    Ends D' R f sp (t.andThen k) := by
  cases t with
  | done v s => exact hk v s ht
  | raised g s => exact ht

/-- The engine after an instruction that has made a state `u` of `s` (60_exceptions.md R361, R370). -/
def EngineAfter (m : Mnemonic) (s u : State) (e : EngineState) : Prop :=
  e = s.engine ∨ (m = .brk ∧ s.flag .i = false ∧ e = .suspended) ∨
    (m ∈ pushers ∧ u.sp = 0x00 ∧ e = .faulted .stackOverflow) ∨
    (m ∈ pullers ∧ u.sp = 0xFF ∧ e = .faulted .stackUnderflow)

/-- A state that differs from one the table allows in the engine alone. -/
def Answers (m : Mnemonic) (o : Operand) (s t : State) : Prop :=
  ∃ u e, t = u.setEngine e ∧ Writes m o s u ∧ EngineAfter m s u e

section

variable {m : Mnemonic} {o : Operand} {s u : State}

theorem answers_of_writes (h : Writes m o s u) : Answers m o s u := ⟨u, _, rfl, h, .inl h.frame.engine⟩

theorem sp_mem_of_pushers (hm : m ∈ pushers) (md : Mode) : .sp ∈ regsWritten m md := by
  fin_cases hm <;> simp [regsWritten]

theorem sp_mem_of_pullers (hm : m ∈ pullers) (md : Mode) : .sp ∈ regsWritten m md := by
  fin_cases hm <;> simp [regsWritten]

/-- A change of what the table allows, memory apart, after changes that it allows. -/
theorem Writes.frame_trans (h : Writes m o s u) {regs : List RegKey} {flags : List Flag} {t : State}
    (hframe : Frame regs flags u t) (hr : regs ⊆ regsWritten m o.mode) (hf : flags ⊆ flagsWritten m)
    (hmem : MemSame u t) : Writes m o s t where
  frame := frame_mono (Frames.frame_trans h.frame hframe) (by simp [hr]) (by simp [hf])
  mem a ha := h.mem a (by rwa [← hmem a])

theorem Writes.setSp (h : Writes m o s u) (hsp : .sp ∈ regsWritten m o.mode) (v : Byte) : Writes m o s (u.setSp v) :=
  h.frame_trans (frame_setSp u v) (by simpa using hsp) (by simp) (memSame_of_mem_eq rfl)

theorem Writes.setPc (h : Writes m o s u) (hpc : .pc ∈ regsWritten m o.mode) (v : Word) : Writes m o s (u.setPc v) :=
  h.frame_trans (frame_setPc u v) (by simpa using hpc) (by simp) (memSame_of_mem_eq rfl)

/-- A slot the stack controller writes is in the stack page above 0x0100 (42_stack.md R200). -/
theorem Writes.writeSlot (h : Writes m o s u) (hm : m ∈ pushers) (hsp : u.sp ≠ 0x00) (v : Byte) :
    Writes m o s (u.write (stackSlot u.sp) v) where
  frame := frame_mono (Frames.frame_trans h.frame (frame_write u _ v)) (by simp) (by simp)
  mem a ha := by
    by_cases hslot : a = stackSlot u.sp
    · refine .inr ⟨hm, ?_⟩
      have hpos : u.sp.toNat ≠ 0 := fun h0 => hsp (BitVec.eq_of_toNat_eq h0)
      have := u.sp.isLt
      rw [hslot, stackSlot_toNat]
      omega
    · rw [State.read_write_other u hslot] at ha
      exact h.mem a ha

theorem push_ends (h : Writes m o s u) (hm : m ∈ pushers) (v : Byte) :
    Ends (Writes m o s) (Writes m o s) .stackOverflow 0x00 (push v u) := by
  by_cases hsp : u.sp = 0x00
  · rw [push_overflow hsp]
    exact ⟨rfl, hsp, h⟩
  · rw [push_done hsp]
    exact (h.writeSlot hm hsp v).setSp (sp_mem_of_pushers hm _) _

theorem pull_ends (h : Writes m o s u) (hm : m ∈ pullers) :
    Ends (Writes m o s) (Writes m o s) .stackUnderflow 0xFF (pull u) := by
  by_cases hsp : u.sp = 0xFF
  · rw [pull_underflow hsp]
    exact ⟨rfl, hsp, h⟩
  · rw [pull_done hsp]
    exact h.setSp (sp_mem_of_pullers hm _) _

theorem pushPc_ends (h : Writes m o s u) (hm : m ∈ pushers) (off : Word) :
    Ends (Writes m o s) (Writes m o s) .stackOverflow 0x00 (pushPc off u) :=
  andThen_ends (push_ends h hm _) fun _ _ h1 => push_ends h1 hm _

theorem pullPc_ends (h : Writes m o s u) (hm : m ∈ pullers) (hpc : .pc ∈ regsWritten m o.mode) (off : Word) :
    Ends (Writes m o s) (Writes m o s) .stackUnderflow 0xFF (pullPc off u) :=
  andThen_ends (pull_ends h hm) fun _ _ h1 => andThen_ends (pull_ends h1 hm) fun _ _ h2 => h2.setPc hpc _

theorem pullFlags_ends (h : Writes m o s u) (hm : m ∈ pullers)
    (hf : [.c, .z, .i, .d, .u, .v, .n] ⊆ flagsWritten m) :
    Ends (Writes m o s) (Writes m o s) .stackUnderflow 0xFF (pullFlags u) :=
  andThen_ends (pull_ends h hm) fun v s1 h1 =>
    h1.frame_trans (frame_setP_restoredP v s1) (by simp) hf (memSame_of_mem_eq rfl)

theorem answers_of_push_ends (hm : m ∈ pushers) {D : State → Prop} (hD : ∀ t, D t → Answers m o s t)
    {t : Attempt Unit} (h : Ends D (Writes m o s) .stackOverflow 0x00 t) : Answers m o s t.finish := by
  cases t with
  | done _ u => exact hD u h
  | raised f u =>
    obtain ⟨rfl, hsp, hu⟩ := h
    exact ⟨u, _, rfl, hu, .inr (.inr (.inl ⟨hm, hsp, rfl⟩))⟩

theorem answers_of_pull_ends (hm : m ∈ pullers) {t : Attempt Unit}
    (h : Ends (Writes m o s) (Writes m o s) .stackUnderflow 0xFF t) : Answers m o s t.finish := by
  cases t with
  | done _ u => exact answers_of_writes h
  | raised f u =>
    obtain ⟨rfl, hsp, hu⟩ := h
    exact ⟨u, _, rfl, hu, .inr (.inr (.inr ⟨hm, hsp, rfl⟩))⟩

/-- The trap taken writes what a push may, and PC; then the engine is Suspended, unless a push raised its fault. -/
theorem takeTrap_answers (hi : s.flag .i = false) : Answers .brk o s (takeTrap s) := by
  have hm : Mnemonic.brk ∈ pushers := by decide
  refine answers_of_push_ends (D := fun t => ∃ u, Writes .brk o s u ∧ t = u.setEngine .suspended) hm ?_ ?_
  · rintro _ ⟨u, hu, rfl⟩
    exact ⟨u, _, rfl, hu, .inr (.inl ⟨rfl, hi, rfl⟩)⟩
  · exact andThen_ends (pushPc_ends writes_refl hm 1) fun _ _ h1 => andThen_ends (push_ends h1 hm _) fun _ _ h2 =>
      ⟨_, h2.setPc (by simp [regsWritten]) _, rfl⟩

end

/-- Every mnemonic on the stack keeps to the table, with the engine as its faults and the trap make it. -/
theorem stack_effect_answers {m : Mnemonic} (hm : m ∈ pushers ∨ m ∈ pullers) (o : Operand) (s : State) :
    Answers m o s (effect m o s) := by
  cases m <;> simp only [effect]
  case pha | php =>
    exact answers_of_push_ends (by decide) (fun _ => answers_of_writes) (push_ends writes_refl (by decide) _)
  case jsr =>
    unfold onMem
    split
    · exact answers_of_push_ends (by decide) (fun _ => answers_of_writes)
        (andThen_ends (pushPc_ends writes_refl (by decide) 0) fun _ _ h => h.setPc (by simp [regsWritten]) _)
    · exact answers_of_writes writes_refl
  case brk =>
    unfold doBrk
    split
    · exact answers_of_writes writes_refl
    · next hi => exact takeTrap_answers (by simpa using hi)
  case pla =>
    refine answers_of_pull_ends (by decide) (andThen_ends (pull_ends writes_refl (by decide)) fun v s1 h => ?_)
    obtain ⟨-, -, hframe, hmem⟩ := writesRegister_setA.set_setZN s1 v
    exact h.frame_trans hframe (by simp [regsWritten]) (by simp [flagsWritten]) hmem
  case plp => exact answers_of_pull_ends (by decide) (pullFlags_ends writes_refl (by decide) (by simp [flagsWritten]))
  case rts => exact answers_of_pull_ends (by decide) (pullPc_ends writes_refl (by decide) (by simp [regsWritten]) 0)
  case rti =>
    exact answers_of_pull_ends (by decide)
      (andThen_ends (pullFlags_ends writes_refl (by decide) (by simp [flagsWritten])) fun _ _ h =>
        pullPc_ends h (by decide) (by simp [regsWritten]) 0)
  all_goals exact absurd hm (by decide)

/-- What exec answers is what the table allows, with the engine as the stack's faults and the trap make it. -/
theorem exec_answers {i : Instr} {s t : State} (h : exec i s = .next t) : Answers i.mnemonic i.operand s t := by
  obtain rfl := Host.Outcome.next.inj ((exec_eq i s).symm.trans h)
  by_cases hm : i.mnemonic ∈ pushers ∨ i.mnemonic ∈ pullers
  · exact stack_effect_answers hm i.operand s
  · obtain ⟨hpush, hpull⟩ := not_or.1 hm
    refine answers_of_writes (effect_writes s hpush hpull fun hinc => mem_of i ?_)
    have hsub : [Mnemonic.inc, .dec] ⊆ [.sta, .stx, .sty, .jmp, .jsr, .inc, .dec] := by simp
    exact hsub hinc

/-- Settles O13: the table's addresses. -/
theorem memoryIsWrittenOnlyByStoresAndPushes : Obligations.MemoryIsWrittenOnlyByStoresAndPushes := by
  intro i s t a h ha
  obtain ⟨u, e, rfl, hw, -⟩ := exec_answers h
  exact hw.mem a ha

/-- Settles O54: the table's changes leave the engine alone, and after them it is what the fault or the trap made it. -/
theorem engineChangesOnlyByBrkAndFaults : Obligations.EngineChangesOnlyByBrkAndFaults := by
  intro i s t h
  obtain ⟨u, e, rfl, -, he⟩ := exec_answers h
  exact he

/-- A register other than P that exec changes is in the table's list. -/
theorem mem_regsWritten {i : Instr} {s t : State} (h : exec i s = .next t) {r : RegKey} (hr : r ≠ .flags)
    (hne : t.reg r ≠ s.reg r) : r ∈ regsWritten i.mnemonic i.mode := by
  obtain ⟨u, e, rfl, hw, -⟩ := exec_answers h
  have hu : (u.setEngine e).reg r = u.reg r := by cases r <;> rfl
  rw [hu] at hne
  exact Decidable.by_contra fun hnot => hne (hw.frame.regs r hnot hr)

/-- A bit of P that exec changes is in the table's list. -/
theorem mem_flagsWritten {i : Instr} {s t : State} (h : exec i s = .next t) {f : Flag} (hne : t.flag f ≠ s.flag f) :
    f ∈ flagsWritten i.mnemonic := by
  obtain ⟨u, e, rfl, hw, -⟩ := exec_answers h
  exact Decidable.by_contra fun hnot => hne (hw.frame.flags f hnot)

theorem zext16_ne {a b : Byte} (h : a ≠ b) : zext16 a ≠ zext16 b := mt Calls.zext16_inj h

/-- The table read by register: the writers 10_state.md R31 to R35 list. -/
theorem writers_of_reg (m : Mnemonic) (md : Mode) :
    (.a ∈ regsWritten m md → m ∈ [.lda, .txa, .tya, .pla, .adc, .sbc, .and, .ora, .eor] ∨
      (m ∈ [.asl, .lsr, .rol, .ror] ∧ md = .accumulator)) ∧
    (.x ∈ regsWritten m md → m ∈ [.ldx, .tax, .tsx, .inx, .dex]) ∧
    (.y ∈ regsWritten m md → m ∈ [.ldy, .tay, .iny, .dey]) ∧
    (.sp ∈ regsWritten m md → m ∈ [.txs, .pha, .php, .pla, .plp, .jsr, .rts, .rti, .brk]) ∧
    (.pc ∈ regsWritten m md →
      m ∈ [.jmp, .jsr, .rts, .rti, .brk, .bcc, .bcs, .beq, .bne, .bmi, .bpl, .bvc, .bvs]) := by
  cases m <;> simp [regsWritten]

/-- Settles O50: the table, read by register. -/
theorem onlyTheNamedInstructionsWriteARegister : Obligations.OnlyTheNamedInstructionsWriteARegister := by
  intro i s t h
  obtain ⟨ha, hx, hy, hsp, hpc⟩ := writers_of_reg i.mnemonic i.mode
  exact ⟨fun hne => ha (mem_regsWritten h (by decide) (zext16_ne hne)),
    fun hne => hx (mem_regsWritten h (by decide) (zext16_ne hne)),
    fun hne => hy (mem_regsWritten h (by decide) (zext16_ne hne)),
    fun hne => hsp (mem_regsWritten h (by decide) (zext16_ne hne)),
    fun hne => hpc (mem_regsWritten h (by decide) hne)⟩

/-- The table read by bit: the writers 10_state.md R39 to R46 list, none of them of B. -/
theorem writers_of_flag (m : Mnemonic) :
    (.c ∈ flagsWritten m → m ∈ [.adc, .sbc, .cmp, .cpx, .cpy, .asl, .lsr, .rol, .ror, .clc, .sec, .plp, .rti]) ∧
    (.z ∈ flagsWritten m ∨ .n ∈ flagsWritten m → m ∈ [.lda, .ldx, .ldy, .tax, .tay, .tsx, .txa, .tya, .txs,
      .pla, .adc, .sbc, .and, .ora, .eor, .cmp, .cpx, .cpy, .inc, .dec, .inx, .iny, .dex, .dey, .asl, .lsr, .rol, .ror,
      .bit, .plp, .rti]) ∧
    (.i ∈ flagsWritten m → m ∈ [.cli, .sei, .plp, .rti]) ∧ (.d ∈ flagsWritten m → m ∈ [.cld, .sed, .plp, .rti]) ∧
    (.u ∈ flagsWritten m → m ∈ [.plp, .rti]) ∧ (.v ∈ flagsWritten m → m ∈ [.adc, .bit, .clv, .plp, .rti]) ∧
    .b ∉ flagsWritten m := by
  cases m <;> decide

/-- Settles O51: the table, read by bit. -/
theorem onlyTheNamedInstructionsWriteAFlag : Obligations.OnlyTheNamedInstructionsWriteAFlag := by
  intro i s t h
  obtain ⟨hc, hzn, hi, hd, hu, hv, hb⟩ := writers_of_flag i.mnemonic
  exact ⟨fun hne => hc (mem_flagsWritten h hne),
    fun hne => hzn (hne.imp (mem_flagsWritten h) (mem_flagsWritten h)),
    fun hne => hi (mem_flagsWritten h hne), fun hne => hd (mem_flagsWritten h hne),
    fun hne => hu (mem_flagsWritten h hne), fun hne => hv (mem_flagsWritten h hne),
    Decidable.by_contra fun hne => hb (mem_flagsWritten h hne)⟩

/-- Settles O52: exec keeps B, and so do the move of PC before it and the fault of an unknown opcode. -/
theorem breakBitIsKeptByEveryStep : Obligations.BreakBitIsKeptByEveryStep := by
  rintro v s t rfl h
  obtain ⟨i, pc, hexec⟩ | rfl := Stepping.step_cases h
  · obtain ⟨-, -, -, -, -, -, hb⟩ := onlyTheNamedInstructionsWriteAFlag i _ t hexec
    exact hb
  · rfl

end Sys2Proof.Proofs.Writers

/-! PROOFS. The bit D has no effect (10_state.md R43; 43_arith_logic.md R236): states that differ only in D are kept so
by every write the instructions make; PHP and BRK copy D into the byte they push, and do no more with it. -/

namespace Sys2Proof.Proofs.Decimal

open Sys2Proof.Machine Sys2Proof.Claims Sys2Proof.Proofs.Frames Sys2Proof.Proofs.OneByteStack

/-- The second P has the bits of the first, D apart. -/
def SameBits (p q : Byte) : Prop := ∀ f, f ≠ .d → testFlag f q = testFlag f p

/-- Everything but D and memory agrees. -/
structure SameRegs (s u : State) : Prop where
  pc : u.pc = s.pc
  sp : u.sp = s.sp
  a : u.a = s.a
  x : u.x = s.x
  y : u.y = s.y
  p : SameBits s.p u.p
  engine : u.engine = s.engine

/-- Everything but D agrees. -/
structure Same (s u : State) : Prop extends SameRegs s u where
  mem : u.mem = s.mem

/-! The bits of P: no operation on them lets D into another bit or into a result. -/

section

variable {p q : Byte} (h : SameBits p q)
include h

theorem SameBits.carryIn : carryIn q = carryIn p := congrArg Bool.toNat (h .c (by decide))

theorem SameBits.writeFlag (f : Flag) (v : Bool) : SameBits (writeFlag f v p) (writeFlag f v q) := fun g hg => by
  simp only [testFlag_writeFlag, h g hg]

theorem SameBits.setZN (v : Byte) : SameBits (setZN v p) (setZN v q) := fun g hg => by
  simp only [testFlag_setZN, h g hg]

theorem SameBits.insertFlag (f : Flag) : SameBits (insertFlag f p) (insertFlag f q) := fun g hg => by
  simp only [testFlag_insertFlag, h g hg]

theorem SameBits.restoredP (b : Byte) : SameBits (restoredP b p) (restoredP b q) := fun g hg => by
  simp only [testFlag_restoredP, h .b (by decide)]

theorem SameBits.aluCompare (r m : Byte) : SameBits (aluCompare r m p) (aluCompare r m q) := fun g hg => by
  simp only [testFlag_aluCompare, h g hg]

theorem SameBits.aluBit (a m : Byte) : SameBits (aluBit a m p) (aluBit a m q) := fun g hg => by
  simp only [testFlag_aluBit, h g hg]

theorem SameBits.aluAdd (a b : Byte) :
    (aluAdd a b q).result = (aluAdd a b p).result ∧ SameBits (aluAdd a b p).p (aluAdd a b q).p := by
  have hresult : (Machine.aluAdd a b q).result = (Machine.aluAdd a b p).result :=
    BitVec.eq_of_toNat_eq (by rw [aluAdd_result, aluAdd_result, h.carryIn])
  exact ⟨hresult, fun g hg => by simp only [testFlag_aluAdd, hresult, h.carryIn, h g hg]⟩

theorem SameBits.aluSub (a b : Byte) :
    (aluSub a b q).result = (aluSub a b p).result ∧ SameBits (aluSub a b p).p (aluSub a b q).p := by
  have hresult : (Machine.aluSub a b q).result = (Machine.aluSub a b p).result :=
    BitVec.eq_of_toNat_eq (Int.ofNat_inj.1 (by rw [aluSub_result, aluSub_result, h.carryIn]))
  exact ⟨hresult, fun g hg => by simp only [testFlag_aluSub, hresult, h.carryIn, h g hg]⟩

theorem SameBits.shift {alu : Byte → Byte → AluOut} {res : Nat → Nat → Nat} {out : Nat → Bool}
    (ha : ShiftRotate.ShiftsBy alu res out) (v : Byte) :
    (alu v q).result = (alu v p).result ∧ SameBits (alu v p).p (alu v q).p := by
  have hresult : (alu v q).result = (alu v p).result :=
    BitVec.eq_of_toNat_eq (by rw [ha.result, ha.result, h .c (by decide)])
  exact ⟨hresult, fun g hg => by simp only [ha.testFlag_p, hresult, h g hg]⟩

end

/-! The state: each read agrees, and equal writes keep the agreement. -/

section

variable {s u : State} (h : Same s u)
include h

theorem Same.ea (m : MemOperand) : ea m u = ea m s := ea_congr h.x h.y h.pc h.mem m

theorem Same.read {addr addr' : Word} (ha : addr' = addr) : u.read addr' = s.read addr := by
  rw [ha, State.read, State.read, h.mem]

theorem Same.readOperand (src : Source) : readOperand src u = readOperand src s := by
  cases src with
  | accumulator => exact h.a
  | immediate v => rfl
  | mem m => exact h.read (h.ea m)

theorem Same.setA {v v' : Byte} (hv : v' = v) : Same (s.setA v) (u.setA v') := { h with a := hv }

theorem Same.setX {v v' : Byte} (hv : v' = v) : Same (s.setX v) (u.setX v') := { h with x := hv }

theorem Same.setY {v v' : Byte} (hv : v' = v) : Same (s.setY v) (u.setY v') := { h with y := hv }

theorem Same.setSp {v v' : Byte} (hv : v' = v) : Same (s.setSp v) (u.setSp v') := { h with sp := hv }

theorem Same.setPc {v v' : Word} (hv : v' = v) : Same (s.setPc v) (u.setPc v') := { h with pc := hv }

theorem Same.setP {p q : Byte} (hp : SameBits p q) : Same (s.setP p) (u.setP q) := { h with p := hp }

theorem Same.raiseFault (f : Fault) : Same (raiseFault f s) (raiseFault f u) := { h with engine := rfl }

theorem Same.setZN {v v' : Byte} (hv : v' = v) : Same (s.setZN v) (u.setZN v') := hv ▸ h.setP (h.p.setZN v')

theorem Same.setFlag (f : Flag) (v : Bool) : Same (s.setFlag f v) (u.setFlag f v) := h.setP (h.p.writeFlag f v)

theorem Same.write {addr addr' : Word} {v v' : Byte} (ha : addr' = addr) (hv : v' = v) :
    Same (s.write addr v) (u.write addr' v') :=
  { h with mem := by rw [State.write_mem, State.write_mem, h.mem, ha, hv] }

theorem Same.writeOperand (d : Dest) {v v' : Byte} (hv : v' = v) : Same (writeOperand d v s) (writeOperand d v' u) := by
  cases d with
  | accumulator => exact h.setA hv
  | mem m => exact h.write (h.ea m) hv

/-- Two states that agree in everything but D are the same state once D is written. -/
theorem Same.setFlag_eq (v : Bool) : u.setFlag .d v = s.setFlag .d v := by
  refine State.ext_fields h.pc h.sp h.a h.x h.y (eq_of_testFlag fun f => ?_) h.mem h.engine
  by_cases hf : f = .d
  · simp [hf]
  · simp [hf, h.p f hf]

theorem Same.flag {f : Flag} (hf : f ≠ .d) : u.flag f = s.flag f := h.p f hf

theorem Same.onSource {o : Operand} {f : Source → State → State} (hf : ∀ src, Same (f src s) (f src u)) :
    Same (onSource f o s) (onSource f o u) := by
  unfold Machine.onSource
  split
  · exact hf _
  · exact h

theorem Same.onDest {o : Operand} {f : Dest → State → State} (hf : ∀ d, Same (f d s) (f d u)) :
    Same (onDest f o s) (onDest f o u) := by
  unfold Machine.onDest
  split
  · exact hf _
  · exact h

theorem Same.onMem {o : Operand} {f : MemOperand → State → State} (hf : ∀ m, Same (f m s) (f m u)) :
    Same (onMem f o s) (onMem f o u) := by
  unfold Machine.onMem
  split
  · exact hf _
  · exact h

theorem Same.onBranch {o : Operand} {c c' : Bool} (hc : c' = c) : Same (onBranch c o s) (onBranch c' o u) := by
  rw [hc]
  unfold Machine.onBranch branch
  split
  · split
    · exact h.setPc (h.ea _)
    · exact h
  · exact h

theorem Same.setAluA {out out' : AluOut} (ho : out'.result = out.result ∧ SameBits out.p out'.p) :
    Same (s.setAluA out) (u.setAluA out') :=
  (h.setA ho.1).setP ho.2

theorem Same.shiftOperand {alu : Byte → Byte → AluOut} {res : Nat → Nat → Nat} {out : Nat → Bool}
    (ha : ShiftRotate.ShiftsBy alu res out) (d : Dest) : Same (shiftOperand alu d s) (shiftOperand alu d u) := by
  unfold Machine.shiftOperand
  rw [h.readOperand]
  obtain ⟨hresult, hbits⟩ := h.p.shift ha (Machine.readOperand d.source s)
  exact (h.setP hbits).writeOperand d hresult

end

/-- Two attempts that come to the same: the same value or the same fault, in related states. -/
def SameEnd (R : State → State → Prop) {α : Type} (t t' : Attempt α) : Prop :=
  match t, t' with
  | .done v s, .done w u => w = v ∧ R s u
  | .raised f s, .raised g u => g = f ∧ R s u
  | _, _ => False

theorem SameEnd.andThen {R R' : State → State → Prop} {α β : Type} {t t' : Attempt α} {k : α → State → Attempt β}
    (h : SameEnd R t t') (hR : ∀ s u, R s u → R' s u) (hk : ∀ v s u, R s u → SameEnd R' (k v s) (k v u)) :
    SameEnd R' (t.andThen k) (t'.andThen k) := by
  cases t <;> cases t'
  case done.done v s w u =>
    obtain ⟨rfl, hsu⟩ := h
    exact hk w s u hsu
  case raised.raised f s g u => exact ⟨h.1, hR s u h.2⟩
  all_goals exact h.elim

theorem SameEnd.finish {R : State → State → Prop} {t t' : Attempt Unit} (h : SameEnd R t t')
    (hraise : ∀ f s u, R s u → R (raiseFault f s) (raiseFault f u)) : R t.finish t'.finish := by
  cases t <;> cases t'
  case done.done => exact h.2
  case raised.raised f s g u =>
    obtain ⟨rfl, hsu⟩ := h
    exact hraise g s u hsu
  all_goals exact h.elim

theorem finish_same {t t' : Attempt Unit} (h : SameEnd Same t t') : Same t.finish t'.finish :=
  h.finish fun f _ _ hsu => hsu.raiseFault f

section

variable {s u : State} (h : Same s u)
include h

theorem push_same {v v' : Byte} (hv : v' = v) : SameEnd Same (push v s) (push v' u) := by
  by_cases hsp : s.sp = 0x00
  · rw [push_overflow hsp, push_overflow (h.sp.trans hsp)]
    exact ⟨rfl, h⟩
  · rw [push_done hsp, push_done (mt h.sp.symm.trans hsp), h.sp]
    exact ⟨rfl, (h.write rfl hv).setSp rfl⟩

theorem pull_same : SameEnd Same (pull s) (pull u) := by
  by_cases hsp : s.sp = 0xFF
  · rw [pull_underflow hsp, pull_underflow (h.sp.trans hsp)]
    exact ⟨rfl, h⟩
  · rw [pull_done hsp, pull_done (mt h.sp.symm.trans hsp), h.sp]
    exact ⟨h.read rfl, h.setSp rfl⟩

theorem pushPc_same (off : Word) : SameEnd Same (pushPc off s) (pushPc off u) := by
  unfold pushPc
  rw [h.pc]
  exact (push_same h rfl).andThen (fun _ _ => id) fun _ _ _ h1 => push_same h1 rfl

theorem pullPc_same (off : Word) : SameEnd Same (pullPc off s) (pullPc off u) :=
  (pull_same h).andThen (fun _ _ => id) fun _ _ _ h1 =>
    (pull_same h1).andThen (fun _ _ => id) fun _ _ _ h2 => ⟨rfl, h2.setPc rfl⟩

theorem pullFlags_same : SameEnd Same (pullFlags s) (pullFlags u) :=
  (pull_same h).andThen (fun _ _ => id) fun b _ _ h1 => ⟨rfl, h1.setP (h1.p.restoredP b)⟩

/-- Every mnemonic but the two that push P keeps two states the same but for D. -/
theorem effect_same {m : Mnemonic} (hm : m ∉ [.php, .brk]) (o : Operand) : Same (effect m o s) (effect m o u) := by
  have hfst : ∀ src, readOperand src u = readOperand src s := h.readOperand
  cases m <;> simp only [effect]
  case lda => exact h.onSource fun src => (h.setA (hfst src)).setZN (hfst src)
  case ldx => exact h.onSource fun src => (h.setX (hfst src)).setZN (hfst src)
  case ldy => exact h.onSource fun src => (h.setY (hfst src)).setZN (hfst src)
  case sta => exact h.onMem fun m => h.writeOperand (.mem m) h.a
  case stx => exact h.onMem fun m => h.writeOperand (.mem m) h.x
  case sty => exact h.onMem fun m => h.writeOperand (.mem m) h.y
  case tax => exact (h.setX h.a).setZN h.a
  case tay => exact (h.setY h.a).setZN h.a
  case txa => exact (h.setA h.x).setZN h.x
  case tya => exact (h.setA h.y).setZN h.y
  case tsx => exact (h.setX h.sp).setZN h.sp
  case txs => exact (h.setSp h.x).setZN h.x
  case pha => exact finish_same (push_same h h.a)
  case pla => exact finish_same ((pull_same h).andThen (fun _ _ => id) fun _ _ _ h1 => ⟨rfl, (h1.setA rfl).setZN rfl⟩)
  case plp => exact finish_same (pullFlags_same h)
  case adc => exact h.onSource fun src => h.setAluA (by rw [hfst, h.a]; exact h.p.aluAdd _ _)
  case sbc => exact h.onSource fun src => h.setAluA (by rw [hfst, h.a]; exact h.p.aluSub _ _)
  case and => exact h.onSource fun src =>
    (h.setA (congrArg₂ (· &&& ·) h.a (hfst src))).setZN (congrArg₂ (· &&& ·) h.a (hfst src))
  case ora => exact h.onSource fun src =>
    (h.setA (congrArg₂ (· ||| ·) h.a (hfst src))).setZN (congrArg₂ (· ||| ·) h.a (hfst src))
  case eor => exact h.onSource fun src =>
    (h.setA (congrArg₂ (· ^^^ ·) h.a (hfst src))).setZN (congrArg₂ (· ^^^ ·) h.a (hfst src))
  case cmp => exact h.onSource fun src => h.setP (by rw [hfst, h.a]; exact h.p.aluCompare _ _)
  case cpx => exact h.onSource fun src => h.setP (by rw [hfst, h.x]; exact h.p.aluCompare _ _)
  case cpy => exact h.onSource fun src => h.setP (by rw [hfst, h.y]; exact h.p.aluCompare _ _)
  case bit => exact h.onSource fun src => h.setP (by rw [hfst, h.a]; exact h.p.aluBit _ _)
  case inc => exact h.onDest fun d =>
    (h.writeOperand d (congrArg (· + 1) (hfst d.source))).setZN (congrArg (· + 1) (hfst d.source))
  case dec => exact h.onDest fun d =>
    (h.writeOperand d (congrArg (· - 1) (hfst d.source))).setZN (congrArg (· - 1) (hfst d.source))
  case inx => exact (h.setX (congrArg (· + 1) h.x)).setZN (congrArg (· + 1) h.x)
  case iny => exact (h.setY (congrArg (· + 1) h.y)).setZN (congrArg (· + 1) h.y)
  case dex => exact (h.setX (congrArg (· - 1) h.x)).setZN (congrArg (· - 1) h.x)
  case dey => exact (h.setY (congrArg (· - 1) h.y)).setZN (congrArg (· - 1) h.y)
  case asl => exact h.onDest (h.shiftOperand ShiftRotate.shiftsBy_aluShl)
  case lsr => exact h.onDest (h.shiftOperand ShiftRotate.shiftsBy_aluShr)
  case rol => exact h.onDest (h.shiftOperand ShiftRotate.shiftsBy_aluRol)
  case ror => exact h.onDest (h.shiftOperand ShiftRotate.shiftsBy_aluRor)
  case jmp => exact h.onMem fun m => h.setPc (h.ea m)
  case jsr => exact h.onMem fun m =>
    finish_same ((pushPc_same h 0).andThen (fun _ _ => id) fun _ _ _ h1 => ⟨rfl, h1.setPc (h1.ea m)⟩)
  case rts => exact finish_same (pullPc_same h 0)
  case rti => exact finish_same ((pullFlags_same h).andThen (fun _ _ => id) fun _ _ _ h1 => pullPc_same h1 0)
  case bcs | beq | bmi | bvs => exact h.onBranch (h.flag (by decide))
  case bcc | bne | bpl | bvc => exact h.onBranch (congrArg (!·) (h.flag (by decide)))
  case nop => exact h
  case clc | cld | cli | clv | sec | sed | sei => exact h.setFlag _ _
  case php | brk => exact absurd hm (by decide)

end

/-- Everything but D agrees, but for bit D of the byte at the stack slot of `top`. -/
structure SameButCopy (top : Byte) (s u : State) : Prop extends SameRegs s u where
  mem : MemSameOutside [stackSlot top] s u
  slot : SameBits (s.read (stackSlot top)) (u.read (stackSlot top))

theorem Same.butCopy {s u : State} (h : Same s u) (top : Byte) : SameButCopy top s u :=
  { h with mem := fun _ _ => h.read rfl, slot := fun f _ => congrArg (testFlag f) (h.read rfl) }

theorem SameButCopy.raiseFault {top : Byte} {s u : State} (h : SameButCopy top s u) (f : Fault) :
    SameButCopy top (raiseFault f s) (raiseFault f u) :=
  { h with engine := rfl }

/-- A byte other than 0x00 is read back in any memory: its cell stands where the read looks first. -/
theorem read_write_same_of_ne_zero {v : Byte} (hv : v ≠ 0) (addr : Word) (m : Memory) :
    (m.write addr v).read addr = v := by
  have hcell (rest : Memory) : Memory.read (Memory.cell addr v ++ rest) addr = v := by
    rw [Memory.cell, if_neg hv]
    simp [Memory.read]
  induction m with
  | nil => simpa [Memory.write] using hcell []
  | cons kw rest ih =>
    obtain ⟨k, w⟩ := kw
    simp only [Memory.write]
    split
    · exact hcell _
    · split
      · exact hcell rest
      · next hne => simpa [Memory.read, Ne.symm hne] using ih

/-- P as it is pushed is never 0x00: bit 4 is set. -/
theorem insertFlag_ne_zero (f : Flag) (p : Byte) : insertFlag f p ≠ 0 := fun h => by
  have hbit : testFlag f (insertFlag f p) = true := by simp [testFlag_insertFlag]
  rw [h] at hbit
  cases f <;> exact absurd hbit (by decide)

/-- A push of P copies D to its slot and does no more with it. -/
theorem pushFlags_sameButCopy {s u : State} (h : Same s u) :
    SameEnd (SameButCopy s.sp) (pushFlags s) (pushFlags u) := by
  rw [pushFlags_eq, pushFlags_eq]
  by_cases hsp : s.sp = 0x00
  · rw [push_overflow hsp, push_overflow (h.sp.trans hsp)]
    exact ⟨rfl, h.butCopy s.sp⟩
  · rw [push_done hsp, push_done (mt h.sp.symm.trans hsp), h.sp]
    refine ⟨rfl, { h with sp := rfl, mem := fun a ha => ?_, slot := ?_ }⟩
    · have hne := List.ne_of_not_mem_cons ha
      exact (State.read_write_other u hne _).trans ((h.read rfl).trans (State.read_write_other s hne _).symm)
    · have hbits := h.p.insertFlag .b
      rw [← read_write_same_of_ne_zero (insertFlag_ne_zero .b s.p) (stackSlot s.sp) s.mem,
        ← read_write_same_of_ne_zero (insertFlag_ne_zero .b u.p) (stackSlot s.sp) u.mem] at hbits
      exact hbits

/-- After the two pushes of the return address the trap's third push is at the slot two below; the vector is in no
slot. -/
theorem takeTrap_sameButCopy {s u : State} (h : Same s u) : SameButCopy (s.sp - 2) (takeTrap s) (takeTrap u) := by
  by_cases hsp : 2 ≤ s.sp.toNat
  · have hpush := pushPc_same h 1
    rw [pushPc_done hsp, pushPc_done (h.sp.symm ▸ hsp)] at hpush
    obtain ⟨-, h1⟩ := hpush
    unfold takeTrap
    rw [pushPc_done hsp, pushPc_done (h.sp.symm ▸ hsp)]
    refine SameEnd.finish ((pushFlags_sameButCopy h1).andThen (fun _ _ => id) fun _ s2 u2 h2 => ⟨rfl, ?_⟩)
      fun f _ _ h2 => h2.raiseFault f
    have hvector (a : Word) (ha : 0x0200 ≤ a.toNat) : u2.read a = s2.read a := h2.mem a (Traps.not_mem_slots ha [_])
    have hpc : u2.read16 Config.irqVector = s2.read16 Config.irqVector :=
      congrArg₂ concat (hvector 0xFFFF (by decide)) (hvector 0xFFFE (by decide))
    exact { h2 with pc := hpc, engine := rfl }
  · have hlow : s.sp = 0x00 ∨ s.sp = 0x01 := by
      have : s.sp.toNat = 0 ∨ s.sp.toNat = 1 := by omega
      exact this.imp (fun h0 => BitVec.eq_of_toNat_eq h0) fun h0 => BitVec.eq_of_toNat_eq h0
    obtain h0 | h1 := hlow
    · rw [Traps.takeTrap_of_raised (Calls.pushPc_overflow h0 1),
        Traps.takeTrap_of_raised (Calls.pushPc_overflow (h.sp.trans h0) 1)]
      exact (h.raiseFault _).butCopy _
    · rw [Traps.takeTrap_of_raised (Calls.pushPc_overflow_low h1 1),
        Traps.takeTrap_of_raised (Calls.pushPc_overflow_low (h.sp.trans h1) 1), h.pc]
      exact (((h.write rfl rfl).setSp rfl).raiseFault _).butCopy _

theorem doBrk_sameButCopy {s u : State} (h : Same s u) : SameButCopy (s.sp - 2) (doBrk s) (doBrk u) := by
  have hi := h.flag (f := .i) (by decide)
  cases hs : s.flag .i with
  | true =>
    rw [Traps.doBrk_masked hs, Traps.doBrk_masked (hi.trans hs)]
    exact h.butCopy _
  | false =>
    rw [Traps.doBrk_taken hs, Traps.doBrk_taken (hi.trans hs)]
    exact takeTrap_sameButCopy h

theorem same_setFlag (s : State) (v : Bool) : Same s (s.setFlag .d v) where
  pc := rfl
  sp := rfl
  a := rfl
  x := rfl
  y := rfl
  p _ hf := by simp [hf]
  engine := rfl
  mem := rfl

theorem SameRegs.registers {s u : State} (h : SameRegs s u) {v : Bool} (hd : u.flag .d = v) :
    u.registers = (s.setFlag .d v).registers := by
  have hp : u.p = writeFlag .d v s.p := eq_of_testFlag fun f => by
    by_cases hf : f = .d
    · rw [hf, testFlag_writeFlag, if_pos rfl]
      exact hd
    · simpa [hf] using h.p f hf
  simp [State.registers, h.pc, h.sp, h.a, h.x, h.y, hp]

/-- An instruction that does not write D and leaves two states the same but for a copy of D only copies D. -/
theorem onlyCopiesD_of_sameButCopy {i : Instr} {top : Byte} {s : State} {v : Bool}
    (hd : .d ∉ Writers.flagsWritten i.mnemonic)
    (h : SameButCopy top (effect i.mnemonic i.operand s) (effect i.mnemonic i.operand (s.setFlag .d v))) :
    OnlyCopiesD i (stackSlot top) v s := by
  have hexec := exec_eq i (s.setFlag .d v)
  have hkept : (effect i.mnemonic i.operand (s.setFlag .d v)).flag .d = (s.setFlag .d v).flag .d :=
    Decidable.by_contra fun hne => hd (Writers.mem_flagsWritten hexec hne)
  refine ⟨_, _, exec_eq i s, hexec, h.registers (hkept.trans ?_), h.engine, h.mem, h.slot⟩
  simp

/-- Settles O53: D is in no other bit, result, register or byte, but for the copies that PHP and BRK push. -/
theorem decimalBitHasNoEffect : Obligations.DecimalBitHasNoEffect := by
  refine ⟨fun i s v hm => ?_, fun s v => ?_, fun s v => ?_⟩
  · exact ⟨_, _, exec_eq i s, exec_eq i _, (effect_same (same_setFlag s v) hm i.operand).setFlag_eq v⟩
  · exact onlyCopiesD_of_sameButCopy (by decide) ((pushFlags_sameButCopy (same_setFlag s v)).finish
      fun f _ _ h => h.raiseFault f)
  · exact onlyCopiesD_of_sameButCopy (by decide) (doBrk_sameButCopy (same_setFlag s v))

end Sys2Proof.Proofs.Decimal

/-! PROOFS. The control port (70_reset_and_hazards.md R400 to R405; 60_exceptions.md R380 to R387): the accessors and
the engine states they are allowed in, the image, the register configuration, the single step and the run loop. -/

namespace Sys2Proof.Proofs.ControlPort

open Sys2Proof.Machine Sys2Proof.Claims Sys2Proof.Proofs.Frames Sys2Proof.Proofs.Stepping

theorem runLoop_faulted (sb : Registers → Memory → Bool) (k : Nat) {s : State} {f : Fault} (h : s.engine = .faulted f) :
    runLoop sb k s = .faulted f s := by
  cases k with
  | zero => simp [runLoop, h]
  | succ k => simp [runLoop, step_faulted h]

theorem runLoop_zero_of_alive (sb : Registers → Memory → Bool) {s : State} (h : s.alive = true) :
    runLoop sb 0 s = .unfinished s := by
  have hne := alive_iff.1 h
  cases he : s.engine with
  | faulted f => exact absurd he (hne f)
  | idle | running | suspended => simp [runLoop, he]

/-- Settles O8: the step answers the fault, and each move of the host asks the engine state first. -/
theorem faultedIsTerminal : Obligations.FaultedIsTerminal := by
  intro s f h
  have hnot : s.engine ≠ .running := by simp [h]
  refine ⟨step_faulted h, fun sb k => ?_, (State.status_of_not_running hnot).trans (congrArg _ h), ?_, ?_, ?_, ?_, ?_,
    ?_, ?_⟩
  · rw [run_of_not_running sb k hnot, runLoop_faulted sb k h]
  · simp [hostStep, EngineState.hostWrites, h]
  · simp [start, h]
  · simp [injectPc, EngineState.hostWrites, h]
  · simp [hostWriteReg, EngineState.hostWrites, h]
  · simp [hostWriteMem, EngineState.hostWrites, h]
  · simp [hostReadReg, EngineState.hostReads, h]
  · simp [hostReadMem, EngineState.hostReads, h]

/-- Settles O55: start writes PC from the vector, or is refused. -/
theorem startLoadsTheResetVector : Obligations.StartLoadsTheResetVector := by
  refine fun s => ⟨fun h => ⟨_, if_pos h, concat_toNat _ _, rfl, fun hlo hhi => ?_⟩, fun h => if_neg h⟩
  calc concat (s.read 0xFFFD) (s.read 0xFFFC)
    _ = 0x8000 := by rw [hlo, hhi]; rfl

/-- A register keeps as many low bits of the number written to it as it has. -/
theorem reg_setReg_toNat (s : State) (k : RegKey) (v : Nat) : ((s.setReg k v).reg k).toNat = v % k.limit := by
  cases k with
  | pc => exact BitVec.toNat_ofNat v 16
  | sp | a | x | y | flags => exact (Addressing.zext16_toNat _).trans (BitVec.toNat_ofNat v 8)

theorem reg_setReg_of_ne {j k : RegKey} (h : j ≠ k) (s : State) (v : Nat) : (s.setReg k v).reg j = s.reg j := by
  cases k with
  | pc => exact Branches.reg_setPc_of_ne h s _
  | sp => exact Stack.writesRegister_setSp.reg_of_ne s _ h
  | a => exact writesRegister_setA.reg_of_ne s _ h
  | x => exact writesRegister_setX.reg_of_ne s _ h
  | y => exact writesRegister_setY.reg_of_ne s _ h
  | flags => exact reg_setP_of_ne h s _

theorem hostReads_of_idle_or_suspended {e : EngineState} (h : e = .idle ∨ e = .suspended) : e.hostReads = true := by
  obtain rfl | rfl := h <;> rfl

theorem hostWrites_of_idle_or_suspended {e : EngineState} (h : e = .idle ∨ e = .suspended) : e.hostWrites = true := by
  obtain rfl | rfl := h <;> rfl

/-- Settles O60: every operation asks the engine state first, and does its one thing where it is allowed. -/
theorem accessorsFollowTheEngineState : Obligations.AccessorsFollowTheEngineState := by
  refine fun s => ⟨fun h => ?_, State.status_of_not_running, fun h => ?_⟩
  · refine ⟨?_, ?_, ?_, ?_, ?_, ?_, ?_, ?_, fun sb k => run_running sb k h, fun k => run_running _ k h, ?_,
      State.status_running h⟩
    · simp [hostReadReg, EngineState.hostReads, h]
    · simp [hostReadMem, EngineState.hostReads, h]
    · simp [hostWriteReg, EngineState.hostWrites, h]
    · simp [hostWriteMem, EngineState.hostWrites, h]
    · simp [injectPc, EngineState.hostWrites, h]
    · simp [loadImage, h]
    · simp [configureWith, h]
    · simp [start, h]
    · simp [hostStep, EngineState.hostWrites, h]
  · have hreads := hostReads_of_idle_or_suspended h
    have hwrites := hostWrites_of_idle_or_suspended h
    refine ⟨fun k => if_pos hreads, fun a => if_pos hreads, fun k v => ?_, fun a v => ?_, fun pc => if_pos hwrites⟩
    · exact ⟨_, if_pos hwrites, reg_setReg_toNat s k v, fun j hj => reg_setReg_of_ne hj s v, State.setReg_mem s k v,
        State.setReg_engine s k v⟩
    · exact ⟨_, if_pos hwrites, rfl, rfl, memSameOutside_write s a v, fun hinv => State.read_write_same hinv a v⟩

/-- Bytes stored in a row leave every address outside the row alone. -/
theorem storeBytes_read_outside (img : List Byte) {base : Nat} (hfit : base + img.length ≤ 65536) (m : Memory)
    {a : Word} (ha : a.toNat < base ∨ base + img.length ≤ a.toNat) : (storeBytes base img m).read a = m.read a := by
  induction img generalizing base m with
  | nil => rfl
  | cons v rest ih =>
    rw [List.length_cons] at hfit ha
    have hne : a ≠ BitVec.ofNat 16 base := by
      rintro rfl
      rw [BitVec.toNat_ofNat] at ha
      omega
    rw [storeBytes, ih (by omega) _ (by omega), Memory.read_write_other hne]

/-- Bytes stored in a row are read back, in a canonical memory. -/
theorem storeBytes_read (img : List Byte) {base : Nat} (hfit : base + img.length ≤ 65536) {m : Memory}
    (hwf : m.wf = true) {k : Nat} (hk : k < img.length) :
    some ((storeBytes base img m).read (BitVec.ofNat 16 (base + k))) = img[k]? := by
  induction img generalizing base m k with
  | nil => simp at hk
  | cons v rest ih =>
    rw [List.length_cons] at hfit hk
    rw [storeBytes]
    cases k with
    | zero =>
      have hbase : (BitVec.ofNat 16 base).toNat < base + 1 := by
        rw [BitVec.toNat_ofNat]
        omega
      exact congrArg some ((storeBytes_read_outside rest (by omega) _ (.inl hbase)).trans
        (Memory.read_write_same hwf _ v))
    | succ k =>
      have hnext := ih (base := base + 1) (by omega) (Memory.write_wf hwf (BitVec.ofNat 16 base) v) (k := k) (by omega)
      rwa [Nat.add_assoc, Nat.add_comm 1 k] at hnext

/-- Settles O56: the image is stored from address 0 up, and the rest of the state stands. -/
theorem loadImageFillsMemoryFromZero : Obligations.LoadImageFillsMemoryFromZero := by
  intro s img hinv hidle
  refine ⟨fun hlen => ?_, fun hlen => by simp [loadImage, hidle, hlen]⟩
  refine ⟨s.setMem (storeBytes 0 img s.mem), by simp [loadImage, hidle, hlen], fun k hk => ?_, fun a ha => ?_, rfl,
    hidle, storeBytes_wf img 0 hinv⟩
  · have hread := storeBytes_read img (base := 0) (by omega) hinv hk
    rwa [Nat.zero_add] at hread
  · exact storeBytes_read_outside img (by omega) s.mem (.inr (by omega))

/-- A configuration pair is bad if its key or its value does not parse (70_reset_and_hazards.md R402). -/
theorem checkPair_error_iff (q : List Char × List Char) :
    (∃ e, checkPairWith .truncate q = .error e) ↔ parseKey q.1 = none ∨ parseUnsigned q.2 = none := by
  unfold checkPairWith
  cases parseKey q.1 <;> cases parseUnsigned q.2 <;> simp

theorem checkPair_ok {q : List Char × List Char} {kv : RegKey × Nat} (h : checkPairWith .truncate q = .ok kv) :
    parseKey q.1 = some kv.1 ∧ parseUnsigned q.2 = some kv.2 := by
  unfold checkPairWith at h
  cases hk : parseKey q.1 <;> cases hv : parseUnsigned q.2 <;> simp [hk, hv] at h
  simp [← h]

theorem checkPairs_cons_error_iff (rule : RegcfgOverflow) (q : List Char × List Char)
    (qs : List (List Char × List Char)) :
    (∃ e, checkPairsWith rule (q :: qs) = .error e) ↔
      (∃ e, checkPairWith rule q = .error e) ∨ ∃ e, checkPairsWith rule qs = .error e := by
  rw [checkPairsWith]
  cases checkPairWith rule q <;> cases checkPairsWith rule qs <;> simp

theorem checkPairs_cons_ok {rule : RegcfgOverflow} {q : List Char × List Char} {qs : List (List Char × List Char)}
    {kvs : List (RegKey × Nat)} (h : checkPairsWith rule (q :: qs) = .ok kvs) :
    ∃ kv rest, checkPairWith rule q = .ok kv ∧ checkPairsWith rule qs = .ok rest ∧ kvs = kv :: rest := by
  rw [checkPairsWith] at h
  cases hq : checkPairWith rule q <;> cases hqs : checkPairsWith rule qs <;> simp [hq, hqs] at h
  exact ⟨_, _, rfl, rfl, h.symm⟩

/-- The check of all pairs fails exactly when one of them is bad. -/
theorem checkPairs_error_iff (pairs : List (List Char × List Char)) :
    (∃ e, checkPairsWith .truncate pairs = .error e) ↔
      ∃ q, q ∈ pairs ∧ (parseKey q.1 = none ∨ parseUnsigned q.2 = none) := by
  induction pairs with
  | nil => simp [checkPairsWith]
  | cons q qs ih => rw [checkPairs_cons_error_iff, checkPair_error_iff, ih, List.exists_mem_cons_iff]

/-- The check goes pair by pair, so it cuts where the list does. -/
theorem checkPairs_append_ok {rule : RegcfgOverflow} {ps qs : List (List Char × List Char)} {kvs : List (RegKey × Nat)}
    (h : checkPairsWith rule (ps ++ qs) = .ok kvs) :
    ∃ ks rest, checkPairsWith rule qs = .ok rest ∧ kvs = ks ++ rest := by
  induction ps generalizing kvs with
  | nil => exact ⟨[], kvs, h, rfl⟩
  | cons p ps ih =>
    obtain ⟨kv, rest, -, hrest, rfl⟩ := checkPairs_cons_ok h
    obtain ⟨ks, rest', hqs, rfl⟩ := ih hrest
    exact ⟨kv :: ks, rest', hqs, rfl⟩

theorem checkPairs_keys {pairs : List (List Char × List Char)} {kvs : List (RegKey × Nat)}
    (h : checkPairsWith .truncate pairs = .ok kvs) {kv : RegKey × Nat} (hkv : kv ∈ kvs) :
    ∃ q, q ∈ pairs ∧ parseKey q.1 = some kv.1 := by
  induction pairs generalizing kvs with
  | nil =>
    obtain rfl := Except.ok.inj h
    simp at hkv
  | cons q qs ih =>
    obtain ⟨kv', rest, hq, hqs, rfl⟩ := checkPairs_cons_ok h
    obtain rfl | hmem := List.mem_cons.1 hkv
    · exact ⟨q, List.mem_cons_self, (checkPair_ok hq).1⟩
    · obtain ⟨q', hq', hkey⟩ := ih hqs hmem
      exact ⟨q', List.mem_cons_of_mem q hq', hkey⟩

/-- Pairs applied in order touch no register without a pair, no byte and not the engine. -/
theorem applyPairs_frame (kvs : List (RegKey × Nat)) (s : State) : (applyPairs kvs s).mem = s.mem ∧
    (applyPairs kvs s).engine = s.engine ∧ ∀ k, (∀ kv ∈ kvs, kv.1 ≠ k) → (applyPairs kvs s).reg k = s.reg k := by
  induction kvs generalizing s with
  | nil => exact ⟨rfl, rfl, fun _ _ => rfl⟩
  | cons kv rest ih =>
    obtain ⟨hmem, hengine, hreg⟩ := ih (s.setReg kv.1 kv.2)
    refine ⟨hmem.trans (State.setReg_mem s _ _), hengine.trans (State.setReg_engine s _ _), fun k hk => ?_⟩
    obtain ⟨hne, hrest⟩ := List.forall_mem_cons.1 hk
    exact (hreg k hrest).trans (reg_setReg_of_ne hne.symm s _)

/-- Of the pairs of one register the last one stands (70_reset_and_hazards.md R402). -/
theorem applyPairs_last (ks rest : List (RegKey × Nat)) (kv : RegKey × Nat) (s : State)
    (h : ∀ kv' ∈ rest, kv'.1 ≠ kv.1) : ((applyPairs (ks ++ kv :: rest) s).reg kv.1).toNat = kv.2 % kv.1.limit := by
  obtain ⟨-, -, hreg⟩ := applyPairs_frame rest ((applyPairs ks s).setReg kv.1 kv.2)
  have happly : applyPairs (ks ++ kv :: rest) s = applyPairs rest ((applyPairs ks s).setReg kv.1 kv.2) := by
    simp [applyPairs]
  rw [happly, hreg kv.1 h, reg_setReg_toNat]

theorem configure_eq {s : State} (h : s.engine = .idle) (pairs : List (List Char × List Char)) :
    configure pairs s = (checkPairsWith .truncate pairs).map (applyPairs · s) := by
  have hrule : configure pairs s = configureWith .truncate pairs s := rfl
  rw [hrule, configureWith, if_neg (not_not.2 h)]
  cases checkPairsWith .truncate pairs <;> rfl

/-- Settles O57: all pairs are checked before the first is applied. -/
theorem configurationIsAllOrNothing : Obligations.ConfigurationIsAllOrNothing := by
  intro s pairs hidle
  rw [← checkPairs_error_iff, configure_eq hidle]
  cases hcheck : checkPairsWith .truncate pairs with
  | error e => exact ⟨by simp [Except.map], nofun⟩
  | ok kvs =>
    refine ⟨by simp [Except.map], ?_⟩
    rintro t ⟨⟩
    obtain ⟨hmem, hengine, hreg⟩ := applyPairs_frame kvs s
    refine ⟨hmem, hengine, fun k hk => hreg k fun kv hkv hkey => ?_, ?_⟩
    · obtain ⟨q, hq, hparse⟩ := checkPairs_keys hcheck hkv
      exact hk q hq (hkey ▸ hparse)
    · rintro k v before key val after rfl hkey hval hafter
      obtain ⟨ks, rest, hrest, rfl⟩ := checkPairs_append_ok hcheck
      obtain ⟨kv, rest', hkv, hrest', rfl⟩ := checkPairs_cons_ok hrest
      obtain ⟨hk, hv⟩ := checkPair_ok hkv
      obtain rfl : kv.1 = k := Option.some.inj (hk.symm.trans hkey)
      obtain rfl : kv.2 = v := Option.some.inj (hv.symm.trans hval)
      refine applyPairs_last ks rest' kv s fun kv' hmem' hsame => ?_
      obtain ⟨q, hq, hparse⟩ := checkPairs_keys hrest' hmem'
      exact hafter q hq (hsame ▸ hparse)

/-- The state handed back to the host is Suspended, or Faulted as it was, and else the same (60_exceptions.md R387). -/
theorem handBack_effect (t : State) : t.handBack.registers = t.registers ∧ t.handBack.mem = t.mem ∧
    t.handBack.faultRecord = t.faultRecord ∧ (t.faultRecord = none → t.handBack.engine = .suspended) := by
  unfold State.handBack State.faultRecord
  cases h : t.engine with
  | faulted f => exact ⟨rfl, rfl, by simp [h], nofun⟩
  | idle | running | suspended => exact ⟨rfl, rfl, rfl, fun _ => rfl⟩

/-- Settles O58: the single step is the machine's step, handed back. -/
theorem hostStepExecutesOneInstruction : Obligations.HostStepExecutesOneInstruction := by
  refine fun s => ⟨fun h => ?_, fun h => by simp [hostStep, EngineState.hostWrites, h]⟩
  obtain ⟨t, ht⟩ := stepInstr_answers s.resume
  have ha : s.alive = true := alive_iff.2 fun f hf => by simp [hf] at h
  have hhost : hostStep s = .ok t.handBack := by
    rw [hostStep, if_pos (hostWrites_of_idle_or_suspended h), ht]
  exact ⟨t, _, (step_of_alive ha).trans ht, hhost, handBack_effect t⟩

/-- What the loop may return: Suspended where `should_break` is true, a fault of a Faulted engine, or nothing yet. -/
def SoundResult (sb : Registers → Memory → Bool) (r : RunResult) : Prop :=
  match r with
  | .suspended t => t.engine = .suspended ∧ sb t.registers t.mem = true
  | .faulted f t => t.engine = .faulted f
  | .unfinished _ => True
  | .refused _ => False

/-- From a state the loop is at its fault, or its step answers a next state. -/
theorem faulted_or_step (s : State) : (∃ f, s.engine = .faulted f) ∨ ∃ t, step s = .next t := by
  by_cases ha : s.alive = true
  · exact .inr (aliveEngineAlwaysAnswers s ha)
  · exact .inl (faulted_of_not_alive ha)

theorem runLoop_sound (sb : Registers → Memory → Bool) (k : Nat) (s : State) : SoundResult sb (runLoop sb k s) := by
  induction k generalizing s with
  | zero =>
    by_cases ha : s.alive = true
    · rw [runLoop_zero_of_alive sb ha]
      trivial
    · obtain ⟨f, hf⟩ := faulted_of_not_alive ha
      rw [runLoop_faulted sb 0 hf]
      exact hf
  | succ k ih =>
    obtain ⟨f, hf⟩ | ⟨t, ht⟩ := faulted_or_step s
    · rw [runLoop_faulted sb _ hf]
      exact hf
    · rw [runLoop_succ sb k ht]
      cases he : t.engine with
      | faulted f => exact he
      | suspended =>
        by_cases hb : sb t.registers t.mem = true
        · simpa [hb] using ⟨he, hb⟩
        · simpa [hb] using ih t
      | idle | running => exact ih t

/-- A result other than unfinished is the result for every larger bound. -/
theorem runLoop_add (sb : Registers → Memory → Bool) (k n : Nat) (s : State)
    (h : ∀ t, runLoop sb k s ≠ .unfinished t) : runLoop sb (k + n) s = runLoop sb k s := by
  induction k generalizing s with
  | zero =>
    by_cases ha : s.alive = true
    · exact absurd (runLoop_zero_of_alive sb ha) (h s)
    · obtain ⟨f, hf⟩ := faulted_of_not_alive ha
      rw [runLoop_faulted sb _ hf, runLoop_faulted sb _ hf]
  | succ k ih =>
    obtain ⟨f, hf⟩ | ⟨t, ht⟩ := faulted_or_step s
    · rw [runLoop_faulted sb _ hf, runLoop_faulted sb _ hf]
    · rw [Nat.add_right_comm]
      rw [runLoop_succ sb k ht] at h ⊢
      rw [runLoop_succ sb (k + n) ht]
      cases he : t.engine with
      | faulted f => rfl
      | suspended =>
        simp only [he] at h ⊢
        split at h
        · next hb => rw [if_pos hb, if_pos hb]
        · next hb => rw [if_neg hb, if_neg hb, ih t h]
      | idle | running =>
        simp only [he] at h ⊢
        exact ih t h

/-- Settles O59: what the loop returns, by induction on its bound; its one turn, by the engine state the step leaves. -/
theorem runReturnsAtABreakOrAFault : Obligations.RunReturnsAtABreakOrAFault := by
  intro sb k s
  have hsound := runLoop_sound sb k s
  refine ⟨run_running sb k, run_of_not_running sb k, rfl, fun t ht => ?_, fun f t ht => ?_,
    fun n => runLoop_add sb k n s, fun r hr => ?_, runLoop_zero_of_alive sb, fun t ht => ?_⟩
  · rwa [ht] at hsound
  · rwa [ht] at hsound
  · rwa [hr] at hsound
  · rw [runLoop_succ sb k ht]
    refine ⟨fun f hf => by rw [hf], fun he hb => by simp [he, hb], fun ha hb => ?_⟩
    cases he : t.engine with
    | faulted f => exact absurd he (alive_iff.1 ha f)
    | suspended => simp [hb he]
    | idle | running => rfl

end Sys2Proof.Proofs.ControlPort
